-- ==== Sys2Proof/Word.lean ====
section
/-! DEFINITION. The words of the MF424 and the per-port record.

Quantities (mV, mA, mW, mWh) are natural numbers, as 00_scope.md ("All arithmetic is on non-negative
integers") says.  Bit vectors hold only what the manual treats as bits: bytes on a line, the
wrapping 32-bit time base (R147) and the 4-bit generation (R1). -/

namespace Sys2Proof

/-- One byte on the dialogue line or the host link. -/
abbrev Byte := BitVec 8

/-- A four-byte field of a host request (R195). -/
abbrev Word32 := BitVec 32

/-- A value of the time base: milliseconds, wrapping at 2^32 (R147). -/
abbrev Time := BitVec 32

/-- A generation, 0..15 (R1). -/
abbrev Gen := BitVec 4

/-- The four ports. -/
inductive PortId where
  | p1 | p2 | p3 | p4
  deriving DecidableEq, Repr

/-- The ports in port-number order. -/
def PortId.all : List PortId := [.p1, .p2, .p3, .p4]

/-- The port's number, 1..4 (the port byte of R195). -/
def PortId.number : PortId → Nat
  | .p1 => 1
  | .p2 => 2
  | .p3 => 3
  | .p4 => 4

/-- One value for each of P1 to P4. -/
structure PerPort (α : Type) where
  p1 : α
  p2 : α
  p3 : α
  p4 : α
  deriving DecidableEq, Repr

/-- The value of port `p`. -/
def PerPort.get {α : Type} (v : PerPort α) : PortId → α
  | .p1 => v.p1
  | .p2 => v.p2
  | .p3 => v.p3
  | .p4 => v.p4

/-- `v` with the value of port `p` replaced. -/
def PerPort.set {α : Type} (v : PerPort α) (p : PortId) (a : α) : PerPort α :=
  match p with
  | .p1 => { v with p1 := a }
  | .p2 => { v with p2 := a }
  | .p3 => { v with p3 := a }
  | .p4 => { v with p4 := a }

/-- The same value for all four ports. -/
def PerPort.all {α : Type} (a : α) : PerPort α := ⟨a, a, a, a⟩

/-- The image of every port's value. -/
def PerPort.map {α β : Type} (f : α → β) (v : PerPort α) : PerPort β :=
  ⟨f v.p1, f v.p2, f v.p3, f v.p4⟩

end Sys2Proof
end

