-- ==== Sys2Proof/Syntax.lean ====
section
/-! DEFINITION. The commands of the MF424: one constructor of `Instr` for each row of
spec/opcode_table.json, with the operands the row's rule gives it.

A host request carries the bytes of its request payload (R195); a received dialogue frame carries its
bytes after the sync byte (R118); an event on a sensed line carries what is read there; a reset
carries what the straps and the fuse store read in the STARTING that follows it. -/

namespace Sys2Proof

/-- The three kinds of reset that hold the part and end in STARTING (R164). -/
inductive HardReset where
  | powerOn | supplyLow | pin
  deriving DecidableEq, Repr

/-- The four settings of the port-count strap; the fourth reads as 4 (R167). -/
inductive PortCountStrap where
  | two | three | four | fourth
  deriving DecidableEq, Repr

/-- The four input-limit classes (R167). -/
inductive LimitClass where
  | mw45000 | mw65000 | mw100000 | mw140000
  deriving DecidableEq, Repr

/-- The two host link rates (R167). -/
inductive LinkRate where
  | baud115200 | baud1000000
  deriving DecidableEq, Repr

/-- Whether a trim correction is added to the raw reading or subtracted from it (R148). -/
inductive Direction where
  | add | subtract
  deriving DecidableEq, Repr

/-- One trim correction: an amount in mV or mA with its direction (R163). -/
structure Correction where
  direction : Direction
  amount : Nat
  deriving DecidableEq, Repr

/-- A port's two corrections (R163). -/
structure PortTrim where
  voltage : Correction
  current : Correction
  deriving DecidableEq, Repr

/-- What the board gives the part in STARTING: the three straps (R167), and the fuse store's record of
corrections with whether its check value passes (R166; the manual gives the check no form). -/
structure Board where
  portCount : PortCountStrap
  limitClass : LimitClass
  linkRate : LinkRate
  fuse : PerPort PortTrim
  fuseCheckPasses : Bool
  deriving DecidableEq, Repr

/-- A command: one row of spec/opcode_table.json. -/
inductive Instr where
  -- host requests (chapter 10, R195): the operands are the request's payload
  | getStatus
  | getPort (port : Byte)
  | getOffers (port : Byte)
  | getPlan
  | takeControl (demand limit : Word32)
  | releaseControl
  | setDemand (demand : Word32)
  | setLimit (limit : Word32)
  | setPort (port rank derate mode : Byte)
  | portEnable (port : Byte)
  | portDisable (port : Byte)
  | portRestart (port : Byte)
  | setMask (masks : Byte)
  | halt
  | resume
  | snapshot
  | clearEnergy (port : Byte)
  | getCapture (port : Byte)
  | getEvents
  | clearEvents (flags : Word32)
  | setEventMask (flags : Word32)
  | setSilence (seconds : Byte)
  | sleep (wake : Byte)
  | softReset
  -- the host link (chapter 10)
  | serveErrorEntry
  | hostStartByte
  /-- The bytes of the frame after its start byte: LEN, kind, payload, check; or LEN alone above 60. -/
  | requestFrameComplete (bytes : List Byte)
  | hostFrameGapTimeout
  | hostFramingError
  | replySent
  -- resets, STARTING and the silence timer (chapter 9)
  /-- `some board`: the cause ends within the step and STARTING begins with that board; `none`: the
  cause lasts until a `resetCauseEnd`. -/
  | powerOn (release : Option Board)
  | supplyLow (release : Option Board)
  | pinReset (release : Option Board)
  | startingEnd
  | silenceExpiry
  -- presence and the port's own timers (chapter 4)
  | presenceAssert (p : PortId)
  | presenceLoss (p : PortId)
  | debounceEnd (p : PortId)
  | detach (p : PortId)
  | discoveryTimeout (p : PortId)
  | coolDownEnd (p : PortId)
  | cleanRunEnd (p : PortId)
  -- frames received on a dialogue line (chapters 5 and 6): the bytes after the sync byte
  | offers (p : PortId) (frame : List Byte)
  | grant (p : PortId) (frame : List Byte)
  | deny (p : PortId) (frame : List Byte)
  | ready (p : PortId) (frame : List Byte)
  | rating (p : PortId) (frame : List Byte)
  | dialogueFrameReject (p : PortId) (frame : List Byte)
  -- line signalling (chapter 6)
  | lineGapTimeout (p : PortId)
  | breakReceived (p : PortId)
  | startOfFrameReport (p : PortId)
  | transmitStart (p : PortId)
  | collision (p : PortId)
  | backoffRetry (p : PortId)
  | frameSent (p : PortId)
  | breakRelease (p : PortId)
  -- the dialogue's waits (chapter 5)
  | queryWaitExpiry (p : PortId)
  | claimWaitExpiry (p : PortId)
  | readyTimeout (p : PortId)
  | settleTimeout (p : PortId)
  | resyncExpiry (p : PortId)
  | windowExpiry (p : PortId)
  | prechargeEnd (p : PortId)
  -- sensed inputs (chapters 7 and 8)
  /-- The port's sense input reads `voltage` mV and `current` mA, uncorrected, at its 1 ms sample. -/
  | sample (p : PortId) (voltage current : Nat)
  | railLowAssert
  | railLowClear
  | batteryChange (present : Bool)
  -- the Arbiter (chapter 3)
  | take
  -- the rest of the line and of the resets
  | syncByteTaken (p : PortId)
  | lineFramingError (p : PortId)
  | resetCauseEnd (cause : HardReset) (board : Board)
  deriving DecidableEq, Repr

end Sys2Proof
end

