-- ==== Sys2Proof/Config.lean ====
section
/-! DEFINITION. What the manual leaves to the board and the model fixes for `State.reset` alone.  Every reset
command carries the board it finds, so no other definition reads this one. -/

namespace Sys2Proof

/-- The board of `State.reset`: four ports, the highest class, the slower link, and a fuse record whose
check passes and whose corrections are 0.  DESIGN CHOICE (assumption log 3): the manual lets a board
strap each of these. -/
def Config.board : Board :=
  { portCount := .four
    limitClass := .mw140000
    linkRate := .baud115200
    fuse := .all ⟨⟨.add, 0⟩, ⟨.add, 0⟩⟩
    fuseCheckPasses := true }

end Sys2Proof
end

