-- ==== Sys2Proof/Machine/Figures.lean ====
section
/-! DEFINITION. The numbers the manual fixes: durations, limits and bounds, each with its rule. -/

namespace Sys2Proof.Machine

/-! ### Durations on the time base, in ms -/

/-- STARTING lasts 10 ms (R165). -/
def startingMs : Nat := 10
/-- Presence is held 50 ms before DISCOVER (R72). -/
def debounceMs : Nat := 50
/-- An absence of 5 ms is a detach (R72, R73). -/
def detachMs : Nat := 5
/-- DISCOVER without an OFFERS ends in the legacy decision after 400 ms (R75). -/
def discoveryMs : Nat := 400
/-- The cool-down of FAULTED (R87). -/
def coolDownMs : Nat := 2000
/-- A clean run (R86). -/
def cleanRunMs : Nat := 10000
/-- The wait of a QUERY attempt (R95) and of a CLAIM attempt (R100). -/
def attemptMs : Nat := 30
/-- The READY wait (R106) and the SETTLE wait (R107). -/
def readyMs : Nat := 500
/-- A resync (R103). -/
def resyncMs : Nat := 300
/-- The offer-change window (R19). -/
def windowMs : Nat := 200
/-- Precharge (R131). -/
def prechargeMs : Nat := 20
/-- The longest gap inside a request frame (R180). -/
def hostGapMs : Nat := 5

/-! ### Durations on the line's own bit timer, in µs -/

/-- One bit time at 100 kbit/s (R117). -/
def bitUs : Nat := 10
/-- One byte, ten bit times (R117). -/
def byteUs : Nat := 100
/-- The longest gap inside a dialogue frame (R118), and the quiet before sending (R122). -/
def lineGapUs : Nat := 1000
/-- The quiet before a retry (R123), and the length of the part's own break (R125). -/
def breakUs : Nat := 3000
/-- The low run that is a received break (R126). -/
def breakDetectUs : Nat := 2000

/-! ### Bounds -/

/-- The lowest voltage of the part's range, and the Basic voltage, in mV (R4, R6). -/
def basicVoltage : Nat := 5000
/-- The highest voltage of the part's range, in mV (R4). -/
def maxVoltage : Nat := 20000
/-- The Basic offer's current, in mA (R6). -/
def basicCurrent : Nat := 900
/-- The port rating Iport, in mA (R26), and the clamp of R4. -/
def portCurrent : Nat := 5000
/-- The clamp of a RANGE offer's power, in mW (R2). -/
def maxPower : Nat := 100000
/-- An unmarked cable's max current, in mA (R7). -/
def unmarkedCurrent : Nat := 3000
/-- The largest demand, in mW (R170). -/
def maxDemand : Nat := 200000
/-- The smallest input limit, in mW (R170). -/
def minLimit : Nat := 5000
/-- The minimum share tested against the remainder, in mW (R32). -/
def minShare : Nat := 5000
/-- The minimum claim, in mA (R33). -/
def minClaim : Nat := 100
/-- The largest silence timeout, in s (R173). -/
def maxSilence : Nat := 60
/-- The top of the corrected voltage, in mV (R148). -/
def senseVoltageTop : Nat := 30000
/-- The top of the corrected current, in mA (R148). -/
def senseCurrentTop : Nat := 8000
/-- The hard trip, in mA (R151). -/
def hardTripCurrent : Nat := 6000
/-- The threshold trip, in mA·ms (R151). -/
def tripThreshold : Nat := 4000
/-- The top of the over-current accumulator (R150). -/
def accumulatorTop : Nat := 65535
/-- The count that is a droop (R154). -/
def droopCount : Nat := 2
/-- The count that is a persistent droop (R155). -/
def persistentCount : Nat := 10
/-- One mWh in mW·ms (R158). -/
def mwMsPerMwh : Nat := 3600000
/-- W wraps here (R158). -/
def wholeEnergyWrap : Nat := 4294967296
/-- Where the restart and the trip count stop (R69). -/
def countTop : Nat := 3
/-- The inbound queue's size (R182). -/
def queueTop : Nat := 4
/-- The largest request payload (R180). -/
def requestTop : Nat := 60

end Sys2Proof.Machine
end

