-- ==== Sys2Proof/Decode.lean ====
section
/-! DEFINITION. The wire formats of chapter 11, read and written: dialogue frames (R117 to R120, R194),
request frames (R180, R181, R195) and reply frames (R185, R195); and `decodeTableWord`, which answers
nothing, since no row of spec/opcode_table.json gives bits. -/

namespace Sys2Proof

/-! ### Bytes and numbers: the most significant byte comes first (chapter 11) -/

/-- The low byte of a number. -/
def byte (n : Nat) : Byte := BitVec.ofNat 8 n

/-- Two bytes, most significant first. -/
def be16 (n : Nat) : List Byte := [byte (n / 256), byte n]

/-- Four bytes, most significant first. -/
def be32 (n : Nat) : List Byte :=
  [byte (n / 16777216), byte (n / 65536), byte (n / 256), byte n]

/-- The number that bytes, most significant first, spell. -/
def readBE (bs : List Byte) : Nat := bs.foldl (fun n b => n * 256 + b.toNat) 0

/-- Bits `lo .. lo + len - 1` of a number. -/
def field (n lo len : Nat) : Nat := n / 2 ^ lo % 2 ^ len

/-- A flag as a bit of weight `2 ^ i`. -/
def bit (b : Bool) (i : Nat) : Nat := if b then 2 ^ i else 0

/-- Is bit `i` of the byte set? -/
def byteBit (b : Byte) (i : Nat) : Bool := field b.toNat i 1 = 1

/-! ### The CRC-8 of R119 -/

/-- One shift of the code's register, polynomial x^8 + x^2 + x + 1. -/
def crcShift (r : Byte) : Byte := if r.msb then (r <<< 1) ^^^ 0x07#8 else r <<< 1

/-- One byte entered into the code's register, most significant bit first. -/
def crcStep (r b : Byte) : Byte :=
  crcShift (crcShift (crcShift (crcShift (crcShift (crcShift (crcShift (crcShift (r ^^^ b))))))))

/-- The code over some bytes, from register 0x00 (R119). -/
def crc8 (bs : List Byte) : Byte := bs.foldl crcStep 0#8

/-! ### Dialogue frames (R194) -/

/-- The sync byte (R194). -/
def syncByte : Byte := 0xC3#8

/-- A supply's kind (R1). -/
inductive SupplyKind where
  | adapter | dock
  deriving DecidableEq, Repr

/-- An offer as a supply sends it, in mV, mA and mW (R2, R194). -/
inductive SentOffer where
  | fixed (voltage current : Nat)
  | range (minVoltage maxVoltage power : Nat)
  deriving DecidableEq, Repr

/-- The reasons of a DENY (R102). -/
inductive DenyReason where
  | stale | over | unavailable
  deriving DecidableEq, Repr

/-- What a delivered and readable frame carries (R93). -/
inductive Message where
  | offers (gen : Gen) (kind : SupplyKind) (menu : List SentOffer)
  | grant (gen : Gen) (index current : Nat)
  | deny (gen : Gen) (reason : DenyReason)
  | ready (gen : Gen)
  | rating (current voltage : Nat)
  deriving DecidableEq, Repr

/-- The payload length in 2-byte units that the second byte after the sync byte carries (R118). -/
def frameUnits (frame : List Byte) : Nat :=
  match frame with
  | _ :: second :: _ => field second.toNat 0 4
  | _ => 0

/-- Does the frame hold the number of bytes its second byte fixes (R118)? -/
def frameComplete (frame : List Byte) : Bool :=
  2 ≤ frame.length && frame.length = 3 + 2 * frameUnits frame

/-- The kinds of frame that R120 delivers. -/
inductive ReceivedKind where
  | offers | grant | deny | ready | rating
  deriving DecidableEq, Repr

/-- The kind and sender pairs that pass R120; the codes are those of R194. -/
def receivedKind (code source : Nat) : Option ReceivedKind :=
  match code, source with
  | 1, 1 => some .offers
  | 3, 1 => some .grant
  | 4, 1 => some .deny
  | 5, 1 => some .ready
  | 7, 2 => some .rating
  | _, _ => none

/-- One offer entry of 4 bytes; bits 31..30 of 00 or 11 are of neither kind (R194). -/
def readOffer (n : Nat) : Option SentOffer :=
  match field n 30 2 with
  | 1 => some (.fixed (field n 20 10 * 50) (field n 10 10 * 10))
  | 2 => some (.range (field n 10 10 * 50) (field n 20 10 * 50) (field n 0 10 * 250))
  | _ => none

/-- A whole number of offer entries, or nothing (R94). -/
def readOffers : List Byte → Option (List SentOffer)
  | [] => some []
  | a :: b :: c :: d :: rest =>
    match readOffer (readBE [a, b, c, d]), readOffers rest with
    | some o, some os => some (o :: os)
    | _, _ => none
  | _ => none

/-- A supply kind code; any code but 0x02 is stored as ADAPTER (R3, R194). -/
def readSupplyKind (b : Byte) : SupplyKind := if b = 0x02#8 then .dock else .adapter

/-- A reason code; any code but STALE and OVER is read as UNAVAILABLE (R102, R194). -/
def readDenyReason (b : Byte) : DenyReason :=
  if b = 0x01#8 then .stale else if b = 0x02#8 then .over else .unavailable

/-- The readability test of R94: the payload read whole for its kind, or nothing. -/
def readPayload (k : ReceivedKind) (gen : Gen) (payload : List Byte) : Option Message :=
  match k, payload with
  | .offers, kind :: _ :: entries =>
    match readOffers entries with
    | some menu => if menu.length ≤ 7 then some (.offers gen (readSupplyKind kind) menu) else none
    | none => none
  | .grant, [a, b] =>
    some (.grant gen (field (readBE [a, b]) 13 3) (field (readBE [a, b]) 3 10 * 10))
  | .deny, [a, _] => some (.deny gen (readDenyReason a))
  | .ready, [] => some (.ready gen)
  | .rating, [a, b] => some (.rating (a.toNat * 50) (b.toNat * 500))
  | _, _ => none

/-- A complete frame's bytes after the sync byte, checked (R119), filtered (R120) and read (R94):
the message it delivers to the Dialogue Engine, or nothing. -/
def readFrame (frame : List Byte) : Option Message :=
  match frame with
  | header :: second :: rest =>
    if frameComplete frame && crc8 frame = 0#8 then
      let destination := field header.toNat 6 2
      if destination = 0 ∨ destination = 3 then
        match receivedKind (field header.toNat 0 4) (field header.toNat 4 2) with
        | some k => readPayload k (BitVec.ofNat 4 (field second.toNat 4 4)) rest.dropLast
        | none => none
      else none
    else none
  | _ => none

/-- A frame of the part's: sync byte, header, generation and length, payload and CRC (R194). -/
def writeFrame (destination kind gen : Nat) (payload : List Byte) : List Byte :=
  let body := byte (destination * 64 + kind) :: byte (gen * 16 + payload.length / 2) :: payload
  syncByte :: (body ++ [crc8 body])

/-- The QUERY frame: destination 2, kind 6, generation 0, no payload (R93, R194). -/
def queryFrame : List Byte := writeFrame 2 6 0 []

/-- The CLAIM frame: destination 1, kind 2; an absent generation is sent as 0 (R194). -/
def claimFrame (index current vop : Nat) (gen : Option Gen) : List Byte :=
  writeFrame 1 2 (gen.getD 0).toNat
    (be32 (index * 2 ^ 29 + current / 10 * 2 ^ 19 + vop / 50 * 2 ^ 9))

/-! ### Request frames (R180, R181, R195) -/

/-- The start byte of both directions of the host link (R195). -/
def startByte : Byte := 0xA5#8

/-- The kinds of request (R195). -/
inductive Request where
  | getStatus | getPort | getOffers | getPlan | takeControl | releaseControl | setDemand | setLimit
  | setPort | portEnable | portDisable | portRestart | setMask | halt | resume | snapshot
  | clearEnergy | getCapture | getEvents | clearEvents | setEventMask | setSilence | sleep | softReset
  deriving DecidableEq, Repr

/-- A request's kind code (R195). -/
def Request.code : Request → Byte
  | .getStatus => 0x01#8
  | .getPort => 0x02#8
  | .getOffers => 0x03#8
  | .getPlan => 0x04#8
  | .takeControl => 0x05#8
  | .releaseControl => 0x06#8
  | .setDemand => 0x07#8
  | .setLimit => 0x08#8
  | .setPort => 0x09#8
  | .portEnable => 0x0A#8
  | .portDisable => 0x0B#8
  | .portRestart => 0x0C#8
  | .setMask => 0x0D#8
  | .halt => 0x0E#8
  | .resume => 0x0F#8
  | .snapshot => 0x10#8
  | .clearEnergy => 0x11#8
  | .getCapture => 0x12#8
  | .getEvents => 0x13#8
  | .clearEvents => 0x14#8
  | .setEventMask => 0x15#8
  | .setSilence => 0x16#8
  | .sleep => 0x17#8
  | .softReset => 0x18#8

/-- The payload length of a request (R195). -/
def Request.length : Request → Nat
  | .takeControl => 8
  | .setDemand | .setLimit | .setPort | .clearEvents | .setEventMask => 4
  | .getPort | .getOffers | .portEnable | .portDisable | .portRestart | .setMask | .clearEnergy
  | .getCapture | .setSilence | .sleep => 1
  | .getStatus | .getPlan | .releaseControl | .halt | .resume | .snapshot | .getEvents | .softReset => 0

/-- The kinds of request, in code order. -/
def Request.all : List Request :=
  [.getStatus, .getPort, .getOffers, .getPlan, .takeControl, .releaseControl, .setDemand, .setLimit,
   .setPort, .portEnable, .portDisable, .portRestart, .setMask, .halt, .resume, .snapshot,
   .clearEnergy, .getCapture, .getEvents, .clearEvents, .setEventMask, .setSilence, .sleep, .softReset]

/-- The request a kind byte names, if any. -/
def Request.ofCode (b : Byte) : Option Request := Request.all.find? (fun r => r.code = b)

/-- A queue entry's verdict (R181). -/
inductive Verdict where
  | good (request : Request) | badFrame | unknown
  deriving DecidableEq, Repr

/-- An entry of the inbound queue (R182): its verdict, its kind byte (or none) and, where GOOD, its
payload. -/
structure QueueEntry where
  verdict : Verdict
  kind : Option Byte
  payload : List Byte
  deriving DecidableEq, Repr

/-- The sum of some bytes, each read as a number 0..255. -/
def byteSum (bs : List Byte) : Nat := (bs.map BitVec.toNat).sum

/-- The check of R181 and R185: LEN through the check byte add up to a multiple of 256. -/
def checkPasses (bs : List Byte) : Bool := byteSum bs % 256 = 0

/-- The check byte that makes `bs` pass. -/
def checkByte (bs : List Byte) : Byte := byte (256 - byteSum bs % 256)

/-- The bytes after the start byte, as a complete request frame (R180): its kind and payload where LEN
fixes a length and the bytes have it; `none` in the first place for a LEN above 60; nothing where
the frame is not complete. -/
def requestParts (bytes : List Byte) : Option (Option (Byte × List Byte)) :=
  match bytes with
  | len :: rest =>
    if Machine.requestTop < len.toNat then
      if rest = [] then some none else none
    else
      match rest with
      | kind :: more =>
        if more.length = len.toNat + 1 then some (some (kind, more.dropLast)) else none
      | [] => none
  | [] => none

/-- The queue entry of a complete request frame, and whether its check passed (R181). -/
def readRequest (bytes : List Byte) : Option (QueueEntry × Bool) :=
  match requestParts bytes with
  | none => none
  | some none => some (⟨.badFrame, none, []⟩, false)
  | some (some (kind, payload)) =>
    if checkPasses bytes then
      match Request.ofCode kind with
      | none => some (⟨.unknown, some kind, []⟩, true)
      | some r =>
        if payload.length = r.length then some (⟨.good r, some kind, payload⟩, true)
        else some (⟨.badFrame, some kind, []⟩, true)
    else some (⟨.badFrame, some kind, []⟩, false)

/-- The GOOD entry of a request with its payload (R181). -/
def goodEntry (r : Request) (payload : List Byte) : QueueEntry := ⟨.good r, some r.code, payload⟩

/-- The bytes after the start byte of a request's frame (R195). -/
def writeRequest (r : Request) (payload : List Byte) : List Byte :=
  let body := byte payload.length :: r.code :: payload
  body ++ [checkByte body]

/-! ### Reply frames (R185, R195) -/

/-- The statuses of a reply (R185). -/
inductive Status where
  | ok | clamped | badFrame | unknown | badPort | range | notOff | notDirected | busy | awake | soleFeed
  deriving DecidableEq, Repr

/-- A status's code (R195). -/
def Status.code : Status → Byte
  | .ok => 0x00#8
  | .clamped => 0x01#8
  | .badFrame => 0x10#8
  | .unknown => 0x11#8
  | .badPort => 0x12#8
  | .range => 0x13#8
  | .notOff => 0x14#8
  | .notDirected => 0x15#8
  | .busy => 0x16#8
  | .awake => 0x17#8
  | .soleFeed => 0x18#8

/-- A reply (R185): the kind byte of its entry, or none; its status; its payload. -/
structure Reply where
  kind : Option Byte
  status : Status
  payload : List Byte
  deriving DecidableEq, Repr

/-- The reply frame's bytes; the kind for none is 0x80 (R185, R195). -/
def Reply.frame (r : Reply) : List Byte :=
  let body := byte r.payload.length :: ((r.kind.getD 0#8) ||| 0x80#8) :: r.status.code :: r.payload
  startByte :: (body ++ [checkByte body])

/-! ### The opcode table's words -/

/-- The command a word spells by the opcode table's bits.  The table gives no row any bits, so no
word spells a command. -/
def decodeTableWord (_nbits _w : Nat) : Option Instr := none

end Sys2Proof
end

