-- ==== Sys2Proof/Machine/State.lean ====
section
/-! DEFINITION. Everything the manual gives the MF424, as plain data, and its value after reset. -/

namespace Sys2Proof.Machine

/-! ### The offer table, the cable record, the contract and the caps (chapter 1) -/

/-- The kinds of an offer entry (R2). -/
inductive OfferKind where
  | basic | fixed | range
  deriving DecidableEq, Repr

/-- The eligibility of an entry (R2). -/
inductive Eligibility where
  | eligible | clamped | ineligible
  deriving DecidableEq, Repr

/-- The fields of an entry that are kept as sent; the Basic entry sends none (R2). -/
inductive Sent where
  | basic
  | offer (o : SentOffer)
  deriving DecidableEq, Repr

/-- An offer entry (R2).  Its index is its position in the table. -/
structure Entry where
  sent : Sent
  eligibility : Eligibility
  /-- The effective voltage Vop in mV; absent for an INELIGIBLE entry. -/
  vop : Option Nat
  /-- The clamped max current in mA; FIXED and BASIC only. -/
  clampedCurrent : Option Nat
  /-- The clamped max power in mW; RANGE only. -/
  clampedPower : Option Nat
  deriving DecidableEq, Repr

/-- An offer table (R1): entries in index order, and the two table fields. -/
structure OfferTable where
  entries : List Entry
  gen : Option Gen
  supply : Option SupplyKind
  deriving DecidableEq, Repr

/-- A cable record (R7): max current in mA and max voltage in mV. -/
structure CableRecord where
  current : Nat
  voltage : Nat
  deriving DecidableEq, Repr

/-- A change of terms in flight (R9). -/
structure PendingChange where
  index : Nat
  gen : Option Gen
  current : Nat
  vop : Nat
  deriving DecidableEq, Repr

/-- The verdict of the validity test (R17). -/
inductive Validity where
  | valid | invalid
  deriving DecidableEq, Repr

/-- A running offer-change window (R9, R18). -/
structure Window where
  start : Time
  verdict : Validity
  deriving DecidableEq, Repr

/-- A contract (R9). -/
structure Contract where
  index : Nat
  kind : OfferKind
  gen : Option Gen
  vop : Nat
  current : Nat
  power : Nat
  since : Time
  change : Option PendingChange
  window : Option Window
  deriving DecidableEq, Repr

/-- A denial cap (R21). -/
structure DenialCap where
  power : Nat
  gen : Option Gen
  deriving DecidableEq, Repr

/-! ### The Port Unit (chapters 4 to 6) -/

/-- The nine states of a port (R69). -/
inductive PortState where
  | off | empty | debounce | discover | standby | claiming | switching | feeding | faulted
  deriving DecidableEq, Repr

/-- The two port modes (R69). -/
inductive PortMode where
  | smart | basicOnly
  deriving DecidableEq, Repr

/-- What a claim is for (R92). -/
inductive Purpose where
  | new | lower | restate | raise | ret
  deriving DecidableEq, Repr

/-- The outstanding exchange (R92).  A QUERY whose frame waits for the end of the part's break has no
wait start yet (R95). -/
inductive Exchange where
  | query (attempt : Nat) (start : Option Time)
  | claim (purpose : Purpose) (index current vop : Nat) (gen : Option Gen) (attempt : Nat) (start : Time)
  | ready (gen : Option Gen) (start : Time)
  | settle (vop : Nat) (start : Time)
  deriving DecidableEq, Repr

/-- Reception on a dialogue line or on the host link: HUNTING, or IN_FRAME with the partial frame
(R115, R179). -/
inductive Reception where
  | hunting
  | inFrame (taken : List Byte)
  deriving DecidableEq, Repr

/-- The transmitter of a Line Interface (R115); SENDING and BREAKING carry the bit-timer value at which
the part began. -/
inductive Transmitter where
  | idle
  | waiting
  | sending (start : Nat)
  | backoff
  | breaking (start : Nat)
  deriving DecidableEq, Repr

/-- A Line Interface (R115).  Moments are values of the bit timer, in µs. -/
structure LineInterface where
  reception : Reception
  lastByteEnd : Option Nat
  transmitter : Transmitter
  held : Option (List Byte)
  collisions : Nat
  quietStart : Option Nat
  lowStart : Option Nat
  breakReported : Bool
  deriving DecidableEq, Repr

/-- The Presence Monitor's two values: the level it last saw, and since when (R72). -/
structure Presence where
  asserted : Bool
  start : Time
  deriving DecidableEq, Repr

/-- A Port Unit: the port record (R69, chapter 1), the Presence Monitor (R72), the Dialogue Engine (R92)
and the Line Interface (R115). -/
structure PortUnit where
  state : PortState
  enabled : Bool
  mode : PortMode
  rank : Nat
  derate : Nat
  legacy : Bool
  restarts : Nat
  trips : Nat
  discoveryStart : Option Time
  cleanRunStart : Option Time
  coolDownStart : Option Time
  table : OfferTable
  cable : Option CableRecord
  contract : Option Contract
  denialCap : Option DenialCap
  droopCap : Option Nat
  presence : Option Presence
  exchange : Option Exchange
  queryEnded : Bool
  resyncStart : Option Time
  line : LineInterface
  deriving DecidableEq, Repr

/-! ### The plan and the Arbiter (chapters 2 and 3) -/

/-- The levels of an entry (R43). -/
inductive Level where
  | gain | change | loss | shed
  deriving DecidableEq, Repr

/-- The origins of an entry (R43). -/
inductive Origin where
  | port (p : PortId)
  | whole
  deriving DecidableEq, Repr

/-- A pending entry (R43). -/
structure PendingEntry where
  level : Level
  origin : Origin
  deriving DecidableEq, Repr

/-- For one level, which origins have an entry. -/
structure OriginSet where
  whole : Bool
  port : PerPort Bool
  deriving DecidableEq, Repr

/-- A set of (level, origin) entries, with no order and at most one entry a pair (R44). -/
structure EntrySet where
  shed : OriginSet
  loss : OriginSet
  change : OriginSet
  gain : OriginSet
  deriving DecidableEq, Repr

/-- The actions of a step (R24). -/
inductive Action where
  | fin | lower | restate | new | raise
  deriving DecidableEq, Repr

/-- A plan step (R24).  An END has no offer index and no voltage, and targets of 0. -/
structure PlanStep where
  port : PortId
  action : Action
  index : Option Nat
  gen : Option Gen
  vop : Option Nat
  current : Nat
  power : Nat
  deriving DecidableEq, Repr

/-- A port's part in the computation (R25). -/
inductive Part where
  | takesPart | held | none
  deriving DecidableEq, Repr

/-- What became of a port in a plan (R24). -/
inductive Disposition where
  | step (a : Action)
  | noStep | kept | withheld
  deriving DecidableEq, Repr

/-- A target row (R24). -/
structure TargetRow where
  part : Part
  figure : Option Nat
  best : Option Nat
  allocation : Nat
  current : Nat
  power : Nat
  disposition : Disposition
  deriving DecidableEq, Repr

/-- A plan (R24). -/
structure Plan where
  steps : List PlanStep
  rows : PerPort TargetRow
  reduceOnly : Bool
  deferral : Bool
  deriving DecidableEq, Repr

/-- The result of a step (R49). -/
inductive StepResult where
  | waiting | inFlight | done | skipped | failed | aborted
  deriving DecidableEq, Repr

/-- The in-service record (R49). -/
structure InService where
  taken : PendingEntry
  plan : Plan
  results : List StepResult
  next : Nat
  inFlight : Bool
  reduceOnly : Bool
  covered : EntrySet
  deriving DecidableEq, Repr

/-- The result of a rebalance (R58). -/
inductive RebalanceResult where
  | done | noChange | partly | abandoned
  deriving DecidableEq, Repr

/-- The last-outcome record (R58). -/
structure LastOutcome where
  taken : PendingEntry
  result : RebalanceResult
  stepsDone : Nat
  time : Time
  deriving DecidableEq, Repr

/-- The Budget Arbiter (chapter 3, R65). -/
structure Arbiter where
  pending : EntrySet
  gainMasked : Bool
  changeMasked : Bool
  inService : Option InService
  halted : Bool
  lastOutcome : Option LastOutcome
  deriving DecidableEq, Repr

/-! ### The Path Controller (chapter 7) -/

/-- The states of a path (R128). -/
inductive PathState where
  | openPath | precharge | closed
  deriving DecidableEq, Repr

/-- The Path Controller's per-port state (R128). -/
structure PortPath where
  state : PathState
  prechargeStart : Option Time
  offerCurrent : Option Nat
  ceiling : Option Nat
  deriving DecidableEq, Repr

/-- A channel record (R128). -/
structure Channel where
  bound : Option PortId
  draw : Nat
  deriving DecidableEq, Repr

/-- The Path Controller (R128). -/
structure PathController where
  port : PerPort PortPath
  a : Channel
  b : Channel
  batteryPresent : Option Bool
  statusOutput : Bool
  deriving DecidableEq, Repr

/-! ### Protection and Metering (chapter 8) -/

/-- The cause of a capture (R146). -/
inductive CaptureCause where
  | droop | dip
  deriving DecidableEq, Repr

/-- A droop or dip capture (R146). -/
structure Capture where
  time : Time
  voltage : Nat
  current : Nat
  vop : Nat
  cause : CaptureCause
  locked : Bool
  deriving DecidableEq, Repr

/-- The unit's per-port state (R146). -/
structure Meter where
  excess : Nat
  droopRun : Nat
  capture : Option Capture
  fine : Nat
  whole : Nat
  deriving DecidableEq, Repr

/-- W and F of a port as a snapshot holds them (R160). -/
structure EnergyPair where
  whole : Nat
  fine : Nat
  deriving DecidableEq, Repr

/-- The snapshot record (R160). -/
structure Snapshot where
  time : Time
  energy : PerPort EnergyPair
  deriving DecidableEq, Repr

/-- The Protection and Metering Unit, less the time base (R146). -/
structure Protection where
  port : PerPort Meter
  snapshot : Option Snapshot
  railAsserted : Option Bool
  deriving DecidableEq, Repr

/-- The time base (R147) and the bit timer of the line and link receivers (chapter 6). -/
structure Clock where
  base : Time
  /-- µs counted since STARTING began. -/
  bit : Nat
  deriving DecidableEq, Repr

/-! ### Mode Control (chapter 9) -/

/-- The causes recorded for a reset (R163). -/
inductive ResetCause where
  | hard (k : HardReset)
  | soft
  deriving DecidableEq, Repr

/-- The strap record (R163). -/
structure StrapRecord where
  portCount : Nat
  limitClass : LimitClass
  linkRate : LinkRate
  deriving DecidableEq, Repr

/-- The authority (R163). -/
inductive Authority where
  | autonomous | directed
  deriving DecidableEq, Repr

/-- The power modes (R163). -/
inductive PowerMode where
  | starting | active | dormant
  deriving DecidableEq, Repr

/-- A set of wake conditions (R177). -/
structure WakeSet where
  attachAny : Bool
  detachFeed : Bool
  lineAny : Bool
  link : Bool
  railLow : Bool
  batteryChange : Bool
  deriving DecidableEq, Repr

/-- The causes that hold the part in reset at present (R164): the supply below its level, under the
name it will be recorded by, and the reset pin. -/
structure ResetHold where
  supply : Option HardReset
  pin : Bool
  deriving DecidableEq, Repr

/-- Mode Control (R163). -/
structure ModeControl where
  cause : ResetCause
  hold : ResetHold
  trim : PerPort PortTrim
  trimDefault : Bool
  straps : StrapRecord
  authority : Authority
  demand : Nat
  limit : Nat
  silenceTimeout : Nat
  silenceElapsed : Option Nat
  power : PowerMode
  wakeSet : Option WakeSet
  deriving DecidableEq, Repr

/-! ### The Host Link Unit (chapter 10) -/

/-- The six flags of a port (R179). -/
structure PortFlags where
  attach : Bool
  detach : Bool
  contract : Bool
  trip : Bool
  droop : Bool
  legacy : Bool
  deriving DecidableEq, Repr

/-- The thirty flags, or one value for each of them (R179). -/
structure FlagSet where
  port : PerPort PortFlags
  dip : Bool
  rebalance : Bool
  authority : Bool
  wake : Bool
  linkError : Bool
  overrun : Bool
  deriving DecidableEq, Repr

/-- The Host Link Unit (R179). -/
structure HostLink where
  reception : Reception
  lastByteEnd : Option Time
  queue : List QueueEntry
  reply : Option Reply
  flags : FlagSet
  mask : FlagSet
  readyLine : Bool
  attentionLine : Bool
  deriving DecidableEq, Repr

/-! ### The sensed lines (00_scope.md, "Points of contact") -/

/-- A port's raw sense readings, in mV and mA, before trim (R148). -/
structure Sense where
  voltage : Nat
  current : Nat
  deriving DecidableEq, Repr

/-- The levels that parties outside the part put on its lines. -/
structure Pins where
  presence : PerPort Bool
  /-- Whether another party pulls the port's dialogue line low. -/
  lineLow : PerPort Bool
  sense : PerPort Sense
  batteryPresent : Bool
  railLow : Bool
  deriving DecidableEq, Repr

/-! ### The whole part -/

/-- The state of the part, with the commands that wait (`pending`, first in, first out: the model's own). -/
structure State where
  pending : List Instr
  pins : Pins
  clock : Clock
  mode : ModeControl
  arb : Arbiter
  units : PerPort PortUnit
  path : PathController
  prot : Protection
  host : HostLink
  deriving DecidableEq, Repr

/-- No command of this block ends in a fault: the manual gives every command an effect in every state it
can meet, and a command whose event has not come about leaves the state as it is.  The type has no
constructor, so no step can answer a fault (safe). -/
inductive Fault where
  deriving DecidableEq, Repr

/-- Why a command has no meaning. -/
inductive Refusal where
  /-- Raised by exec alone, for a command whose meaning has not been written (safe: the model stops).
  No command of this model is in that case. -/
  | notModelled (mnemonic : String)
  deriving DecidableEq, Repr

/-! ### Reset values -/

/-- The class in mW (R167). -/
def classPower : LimitClass → Nat
  | .mw45000 => 45000
  | .mw65000 => 65000
  | .mw100000 => 100000
  | .mw140000 => 140000

/-- The port count a setting reads as (R167). -/
def strapPorts : PortCountStrap → Nat
  | .two => 2
  | .three => 3
  | .four => 4
  | .fourth => 4

/-- The empty set of entries. -/
def EntrySet.empty : EntrySet :=
  let none : OriginSet := ⟨false, .all false⟩
  ⟨none, none, none, none⟩

/-- One value for all thirty flags. -/
def FlagSet.all (v : Bool) : FlagSet := ⟨.all ⟨v, v, v, v, v, v⟩, v, v, v, v, v, v⟩

/-- The empty offer table (R1). -/
def OfferTable.empty : OfferTable := ⟨[], none, none⟩

/-- A Line Interface after reset (R115). -/
def LineInterface.reset : LineInterface := ⟨.hunting, none, .idle, none, 0, none, none, false⟩

/-- A Port Unit after a POWER_ON, SUPPLY_LOW or PIN reset (R16, R69, R72, R92, R115). -/
def PortUnit.reset (enabled : Bool) : PortUnit :=
  { state := .off, enabled := enabled, mode := .smart, rank := 1, derate := 100, legacy := false
    restarts := 0, trips := 0, discoveryStart := none, cleanRunStart := none, coolDownStart := none
    table := .empty, cable := none, contract := none, denialCap := none, droopCap := none
    presence := none, exchange := none, queryEnded := false, resyncStart := none, line := .reset }

/-- The Arbiter after a POWER_ON, SUPPLY_LOW or PIN reset (R65). -/
def Arbiter.reset : Arbiter := ⟨.empty, false, false, none, false, none⟩

/-- The Path Controller after a POWER_ON, SUPPLY_LOW or PIN reset (R128). -/
def PathController.reset : PathController :=
  ⟨.all ⟨.openPath, none, none, none⟩, ⟨none, 0⟩, ⟨none, 0⟩, none, false⟩

/-- A port's meter with some energy counters and the rest as every hard reset leaves it (R146). -/
def Meter.reset (energy : EnergyPair) : Meter := ⟨0, 0, none, energy.fine, energy.whole⟩

/-- The Host Link Unit after a POWER_ON, SUPPLY_LOW or PIN reset (R179). -/
def HostLink.reset : HostLink :=
  ⟨.hunting, none, [], none, .all false, .all false, false, false⟩

/-- No sensed line driven: no presence, dialogue lines high, sense inputs at 0, the battery-present
line absent and the rail comparator clear.  DESIGN CHOICE (assumption log 4): the manual gives lines no
reset level. -/
def Pins.idle : Pins := ⟨.all false, .all false, .all ⟨0, 0⟩, false, false⟩

/-- A trim correction of 0 (R166). -/
def noCorrection : Correction := ⟨.add, 0⟩

/-- The corrections that STARTING loads: the record's where its check passes, else all 0 (R166). -/
def loadedTrim (b : Board) : PerPort PortTrim :=
  if b.fuseCheckPasses then b.fuse else .all ⟨noCorrection, noCorrection⟩

/-- The strap record that STARTING writes (R167). -/
def sampledStraps (b : Board) : StrapRecord :=
  ⟨strapPorts b.portCount, b.limitClass, b.linkRate⟩

/-- Mode Control as STARTING begins (R163, R165 to R167). -/
def ModeControl.starting (cause : HardReset) (b : Board) : ModeControl :=
  { cause := .hard cause, hold := ⟨none, false⟩
    trim := loadedTrim b, trimDefault := !b.fuseCheckPasses, straps := sampledStraps b
    authority := .autonomous, demand := classPower b.limitClass, limit := classPower b.limitClass
    silenceTimeout := 0, silenceElapsed := none, power := .starting, wakeSet := none }

/-- The part right after a POWER_ON reset: STARTING has begun, on the board of Config.lean. -/
def State.reset : State :=
  { pending := []
    pins := .idle
    clock := ⟨0, 0⟩
    mode := .starting .powerOn Config.board
    arb := .reset
    units := ⟨.reset true, .reset true, .reset true, .reset true⟩
    path := .reset
    prot := ⟨.all (.reset ⟨0, 0⟩), none, none⟩
    host := .reset }

end Sys2Proof.Machine
end

