-- ==== Sys2Proof/Machine/Ops.lean ====
section
/-! DEFINITION. The named operations over State: one home for reading and updating each block, the clock
(R147) and the pending set (R44). -/

namespace Sys2Proof.Machine

/-! ### Updates, one for each block -/

/-- Update the sensed lines. -/
def State.modPins (s : State) (f : Pins → Pins) : State := { s with pins := f s.pins }

/-- Update Mode Control. -/
def State.modMode (s : State) (f : ModeControl → ModeControl) : State := { s with mode := f s.mode }

/-- Update the Arbiter. -/
def State.modArb (s : State) (f : Arbiter → Arbiter) : State := { s with arb := f s.arb }

/-- Update port `p`'s Port Unit. -/
def State.modUnit (s : State) (p : PortId) (f : PortUnit → PortUnit) : State :=
  { s with units := s.units.set p (f (s.units.get p)) }

/-- Update port `p`'s Line Interface. -/
def State.modLine (s : State) (p : PortId) (f : LineInterface → LineInterface) : State :=
  s.modUnit p fun u => { u with line := f u.line }

/-- Update the Path Controller. -/
def State.modPath (s : State) (f : PathController → PathController) : State :=
  { s with path := f s.path }

/-- Update port `p`'s path. -/
def State.modPortPath (s : State) (p : PortId) (f : PortPath → PortPath) : State :=
  s.modPath fun c => { c with port := c.port.set p (f (c.port.get p)) }

/-- Update the Protection and Metering Unit. -/
def State.modProt (s : State) (f : Protection → Protection) : State := { s with prot := f s.prot }

/-- Update port `p`'s meter. -/
def State.modMeter (s : State) (p : PortId) (f : Meter → Meter) : State :=
  s.modProt fun c => { c with port := c.port.set p (f (c.port.get p)) }

/-- Update the Host Link Unit. -/
def State.modHost (s : State) (f : HostLink → HostLink) : State := { s with host := f s.host }

/-- Port `p`'s Port Unit. -/
def State.unit (s : State) (p : PortId) : PortUnit := s.units.get p

/-- Port `p`'s path. -/
def State.portPath (s : State) (p : PortId) : PortPath := s.path.port.get p

/-- Port `p`'s meter. -/
def State.meter (s : State) (p : PortId) : Meter := s.prot.port.get p

/-! ### Time -/

/-- The time base (R147). -/
def State.now (s : State) : Time := s.clock.base

/-- The ms since a recorded time, modulo 2^32 (R147). -/
def State.since (s : State) (start : Time) : Nat := (s.clock.base - start).toNat

/-- Let `us` microseconds pass: the bit timer and the time base advance (R147), and silence elapsed counts
where the timer runs, which is in ACTIVE (R173). -/
def State.pass (s : State) (us : Nat) : State :=
  let bit := s.clock.bit + us
  let ms := bit / 1000 - s.clock.bit / 1000
  { s with
    clock := ⟨s.clock.base + BitVec.ofNat 32 ms, bit⟩
    mode := { s.mode with
      silenceElapsed :=
        if s.mode.power = .active then s.mode.silenceElapsed.map (· + ms) else s.mode.silenceElapsed } }

/-- Let time pass until `ms` have passed on the time base since `start`; none passes where they have. -/
def State.waitMs (s : State) (start : Time) (ms : Nat) : State :=
  if ms ≤ s.since start then s else s.pass ((ms - s.since start) * 1000 - s.clock.bit % 1000)

/-- Let time pass until the bit timer has counted `us` since `start`. -/
def State.waitUs (s : State) (start us : Nat) : State :=
  if start + us ≤ s.clock.bit then s else s.pass (start + us - s.clock.bit)

/-- Does a reset cause hold the part (R164)? -/
def State.held (s : State) : Bool := s.mode.hold.supply.isSome || s.mode.hold.pin

/-- One idle millisecond: what a step does where no command waits.  A part held in reset keeps no time. -/
def State.tick (s : State) : State := if s.held then s else s.pass 1000

/-! ### The pending set (R43, R44) -/

/-- Is the origin in the set? -/
def OriginSet.has (o : OriginSet) : Origin → Bool
  | .whole => o.whole
  | .port p => o.port.get p

/-- Put or remove an origin. -/
def OriginSet.put (o : OriginSet) (g : Origin) (v : Bool) : OriginSet :=
  match g with
  | .whole => { o with whole := v }
  | .port p => { o with port := o.port.set p v }

/-- The origins of one level. -/
def EntrySet.level (e : EntrySet) : Level → OriginSet
  | .shed => e.shed
  | .loss => e.loss
  | .change => e.change
  | .gain => e.gain

/-- Is the entry in the set? -/
def EntrySet.has (e : EntrySet) (x : PendingEntry) : Bool := (e.level x.level).has x.origin

/-- Put or remove an entry. -/
def EntrySet.put (e : EntrySet) (x : PendingEntry) (v : Bool) : EntrySet :=
  let o := (e.level x.level).put x.origin v
  match x.level with
  | .shed => { e with shed := o }
  | .loss => { e with loss := o }
  | .change => { e with change := o }
  | .gain => { e with gain := o }

/-- Post an entry: it joins the pending set (R44), and leaves the covered list of a rebalance in service
where it stands on it (R50). -/
def State.post (s : State) (l : Level) (o : Origin) : State :=
  s.modArb fun a => { a with
    pending := a.pending.put ⟨l, o⟩ true
    inService := a.inService.map fun r => { r with covered := r.covered.put ⟨l, o⟩ false } }

/-- A level's number (R43). -/
def Level.number : Level → Nat
  | .shed => 3
  | .loss => 2
  | .change => 1
  | .gain => 0

/-- Is the level masked (R45)? -/
def Arbiter.masked (a : Arbiter) : Level → Bool
  | .gain => a.gainMasked
  | .change => a.changeMasked
  | .loss | .shed => false

/-- The rank of a port as the Planner and the Arbiter read it: 1 in AUTONOMOUS (R23, R47). -/
def State.rankRead (s : State) (p : PortId) : Nat :=
  match s.mode.authority with
  | .autonomous => 1
  | .directed => (s.unit p).rank

/-- Insertion of a port into a list ordered by rank, after the ports of its rank. -/
def insertByRank (rank : PortId → Nat) (p : PortId) : List PortId → List PortId
  | [] => [p]
  | q :: rest => if rank p < rank q then p :: q :: rest else q :: insertByRank rank p rest

/-- The ports in rank order, and in port-number order within a rank (R47). -/
def State.portsByRank (s : State) : List PortId :=
  PortId.all.foldl (fun l p => insertByRank s.rankRead p l) []

/-- Every (level, origin) pair, in the order R47 takes entries. -/
def State.takeOrder (s : State) : List PendingEntry :=
  [Level.shed, .loss, .change, .gain].flatMap fun l =>
    ⟨l, .whole⟩ :: s.portsByRank.map fun p => ⟨l, .port p⟩

/-- The pending and unmasked entries, in take order. -/
def State.takeable (s : State) : List PendingEntry :=
  s.takeOrder.filter fun e => s.arb.pending.has e && !s.arb.masked e.level

/-- The number of entries of a set. -/
def EntrySet.count (e : EntrySet) : Nat :=
  (([Level.shed, .loss, .change, .gain].flatMap fun l =>
    (Origin.whole :: PortId.all.map Origin.port).map fun o => PendingEntry.mk l o).filter e.has).length

end Sys2Proof.Machine
end

