-- ==== Sys2Proof/Machine/Flags.lean ====
section
/-! DEFINITION. The thirty event flags and their mask (R179, R188 to R190), their vectors (R195), and the three
lines that follow the state: attention (R191), ready (R183) and the status output (R129). -/

namespace Sys2Proof.Machine

/-- The six flags of a port, in vector order (R195). -/
inductive PortFlag where
  | attach | detach | contract | trip | droop | legacy
  deriving DecidableEq, Repr

/-- The six global flags, in vector order (R195). -/
inductive GlobalFlag where
  | dip | rebalance | authority | wake | linkError | overrun
  deriving DecidableEq, Repr

/-- A flag. -/
inductive Flag where
  | port (p : PortId) (f : PortFlag)
  | whole (f : GlobalFlag)
  deriving DecidableEq, Repr

/-- The flags of a port, in vector order. -/
def PortFlag.all : List PortFlag := [.attach, .detach, .contract, .trip, .droop, .legacy]

/-- The thirty flags, in the order of a flag vector's bits 0..29 (R195). -/
def Flag.all : List Flag :=
  (PortId.all.flatMap fun p => PortFlag.all.map (Flag.port p)) ++
    [GlobalFlag.dip, .rebalance, .authority, .wake, .linkError, .overrun].map Flag.whole

/-- One flag of a port. -/
def PortFlags.get (x : PortFlags) : PortFlag → Bool
  | .attach => x.attach
  | .detach => x.detach
  | .contract => x.contract
  | .trip => x.trip
  | .droop => x.droop
  | .legacy => x.legacy

/-- Write one flag of a port. -/
def PortFlags.put (x : PortFlags) (f : PortFlag) (v : Bool) : PortFlags :=
  match f with
  | .attach => { x with attach := v }
  | .detach => { x with detach := v }
  | .contract => { x with contract := v }
  | .trip => { x with trip := v }
  | .droop => { x with droop := v }
  | .legacy => { x with legacy := v }

/-- One flag. -/
def FlagSet.get (x : FlagSet) : Flag → Bool
  | .port p f => (x.port.get p).get f
  | .whole .dip => x.dip
  | .whole .rebalance => x.rebalance
  | .whole .authority => x.authority
  | .whole .wake => x.wake
  | .whole .linkError => x.linkError
  | .whole .overrun => x.overrun

/-- Write one flag. -/
def FlagSet.put (x : FlagSet) (f : Flag) (v : Bool) : FlagSet :=
  match f with
  | .port p f => { x with port := x.port.set p ((x.port.get p).put f v) }
  | .whole .dip => { x with dip := v }
  | .whole .rebalance => { x with rebalance := v }
  | .whole .authority => { x with authority := v }
  | .whole .wake => { x with wake := v }
  | .whole .linkError => { x with linkError := v }
  | .whole .overrun => { x with overrun := v }

/-- Set a flag (R188). -/
def State.setFlag (s : State) (f : Flag) : State :=
  s.modHost fun h => { h with flags := h.flags.put f true }

/-- The flags that a predicate on their vector positions makes true. -/
def FlagSet.ofBits (f : Nat → Bool) : FlagSet :=
  let port (n : Nat) : PortFlags :=
    ⟨f n, f (n + 1), f (n + 2), f (n + 3), f (n + 4), f (n + 5)⟩
  ⟨⟨port 0, port 6, port 12, port 18⟩, f 24, f 25, f 26, f 27, f 28, f 29⟩

/-- The flags a vector lists or masks; bits 30 and 31 are not read (R195). -/
def FlagSet.ofVector (v : Word32) : FlagSet := .ofBits fun i => field v.toNat i 1 = 1

/-- A set of flags as a vector, bits 30 and 31 as 0 (R195). -/
def FlagSet.toVector (x : FlagSet) : Nat :=
  (Flag.all.zipIdx.map fun fi => bit (x.get fi.1) fi.2).sum

/-- The flags of `x` less those listed (R189). -/
def FlagSet.minus (x listed : FlagSet) : FlagSet :=
  let port (a b : PortFlags) : PortFlags :=
    ⟨a.attach && !b.attach, a.detach && !b.detach, a.contract && !b.contract, a.trip && !b.trip,
     a.droop && !b.droop, a.legacy && !b.legacy⟩
  ⟨⟨port x.port.p1 listed.port.p1, port x.port.p2 listed.port.p2, port x.port.p3 listed.port.p3,
    port x.port.p4 listed.port.p4⟩,
   x.dip && !listed.dip, x.rebalance && !listed.rebalance, x.authority && !listed.authority,
   x.wake && !listed.wake, x.linkError && !listed.linkError, x.overrun && !listed.overrun⟩

/-- Is a flag set whose mask entry is unmasked (R191)? -/
def HostLink.unmaskedSet (h : HostLink) : Bool := Flag.all.any fun f => h.flags.get f && !h.mask.get f

/-- The attention line's level (R191); deasserted through STARTING and while a reset holds the part. -/
def State.attentionLevel (s : State) : Bool := s.mode.power != .starting && s.host.unmaskedSet

/-- The ready line's level (R183). -/
def State.readyLevel (s : State) : Bool := s.mode.power != .starting && decide (s.host.queue.length ≤ 2)

/-- The status output's level: is any path CLOSED (R129)? -/
def State.statusLevel (s : State) : Bool := PortId.all.any fun p => (s.portPath p).state == .closed

/-- The three lines brought to the levels their rules give. -/
def State.refresh (s : State) : State :=
  { s with
    path := { s.path with statusOutput := s.statusLevel }
    host := { s.host with readyLine := s.readyLevel, attentionLine := s.attentionLevel } }

/-- The outcome of every command: the state it leaves, its lines following. -/
def finish (s : State) : Host.Outcome State Fault Refusal := .next s.refresh

end Sys2Proof.Machine
end

