-- ==== Sys2Proof/Machine/Operands.lean ====
section
/-! DEFINITION. How a command's operands are read: port bytes and wake sets of requests (R175, R195), and
sensed readings corrected by trim (R148). -/

namespace Sys2Proof.Machine

/-- The port a request's port byte names; nothing for 0, for a value above 4 and for a port above the
strap port count, which is BAD_PORT (R185, R195). -/
def State.namedPort (s : State) (b : Byte) : Option PortId :=
  PortId.all.find? fun p => p.number = b.toNat && decide (p.number ≤ s.mode.straps.portCount)

/-- The class in force, in mW (R167). -/
def State.classPower (s : State) : Nat := Machine.classPower s.mode.straps.limitClass

/-- A SLEEP's wake set; nothing where it is empty or has bit 6 or 7 set, which is RANGE (R175, R195). -/
def wakeSetOf (b : Byte) : Option WakeSet :=
  if b.toNat = 0 ∨ 64 ≤ b.toNat then none
  else some ⟨byteBit b 0, byteBit b 1, byteBit b 2, byteBit b 3, byteBit b 4, byteBit b 5⟩

/-- A SET_PORT's mode byte (R90, R195). -/
def portModeOf (b : Byte) : Option PortMode :=
  if b = 0x00#8 then some .smart else if b = 0x01#8 then some .basicOnly else none

/-- A value pulled into `lo .. hi` (R170). -/
def clampTo (lo hi n : Nat) : Nat := min hi (max lo n)

/-- CLAMPED where a value was pulled into its range, else OK (R185). -/
def clampStatus (pulled : Bool) : Status := if pulled then .clamped else .ok

/-- A raw reading corrected by trim and held to `0 .. top` (R148). -/
def corrected (c : Correction) (raw top : Nat) : Nat :=
  min top (match c.direction with
    | .add => raw + c.amount
    | .subtract => raw - c.amount)

/-- The measured voltage V of a port, in mV (R148, R130). -/
def State.voltage (s : State) (p : PortId) : Nat :=
  corrected (s.mode.trim.get p).voltage (s.pins.sense.get p).voltage senseVoltageTop

/-- The measured current M of a port, in mA (R148). -/
def State.current (s : State) (p : PortId) : Nat :=
  corrected (s.mode.trim.get p).current (s.pins.sense.get p).current senseCurrentTop

/-- Is a measured voltage within `vop ± floor(vop / 20)`, both bounds included (R130)? -/
def inWindow (vop v : Nat) : Bool := vop - vop / 20 ≤ v && v ≤ vop + vop / 20

end Sys2Proof.Machine
end

