-- ==== Sys2Proof/Machine/Offers.lean ====
section
/-! DEFINITION. The offer table: eligibility (R2 to R6), its storing and recomputing (R3, R8), and the figures
of an offer and of a port (R26 to R29). -/

namespace Sys2Proof.Machine

/-! ### Eligibility -/

/-- The cable's max current, or an unmarked cable's (R7). -/
def PortUnit.cableCurrent (u : PortUnit) : Nat := (u.cable.map CableRecord.current).getD unmarkedCurrent

/-- The cable's max voltage, or an unmarked cable's (R4, R7). -/
def PortUnit.cableVoltage (u : PortUnit) : Nat := (u.cable.map CableRecord.voltage).getD maxVoltage

/-- Entry 0, the Basic offer (R6). -/
def basicEntry : Entry := ⟨.basic, .eligible, some basicVoltage, some basicCurrent, none⟩

/-- A FIXED offer judged against the cable's max voltage (R4). -/
def judgeFixed (cable voltage current : Nat) : Entry :=
  let sent := Sent.offer (.fixed voltage current)
  let clamped := some (min current portCurrent)
  if voltage < basicVoltage ∨ maxVoltage < voltage ∨ cable < voltage then
    ⟨sent, .ineligible, none, clamped, none⟩
  else if portCurrent < current then ⟨sent, .clamped, some voltage, clamped, none⟩
  else ⟨sent, .eligible, some voltage, clamped, none⟩

/-- A RANGE offer judged against the bound B (R5). -/
def judgeRange (cable minV maxV power : Nat) : Entry :=
  let sent := Sent.offer (.range minV maxV power)
  let clamped := some (min power maxPower)
  let bound := min maxVoltage cable
  if maxV < minV ∨ maxV < basicVoltage ∨ bound < max minV basicVoltage then
    ⟨sent, .ineligible, none, none, clamped⟩
  else if bound < maxV ∨ maxPower < power then ⟨sent, .clamped, some (min maxV bound), none, clamped⟩
  else ⟨sent, .eligible, some (min maxV bound), none, clamped⟩

/-- An offer's entry against the cable's max voltage (R4, R5). -/
def judge (cable : Nat) : SentOffer → Entry
  | .fixed v i => judgeFixed cable v i
  | .range lo hi p => judgeRange cable lo hi p

/-- An entry computed again against a new cable bound (R8); entry 0 stays as it is (R6). -/
def rejudge (cable : Nat) (e : Entry) : Entry :=
  match e.sent with
  | .basic => basicEntry
  | .offer o => judge cable o

/-- The table on entry to DISCOVER: entry 0 alone (R1). -/
def discoverTable : OfferTable := ⟨[basicEntry], none, none⟩

/-- The table with an OFFERS's menu written behind entry 0 (R3). -/
def storedTable (cable : Nat) (gen : Gen) (kind : SupplyKind) (menu : List SentOffer) : OfferTable :=
  ⟨basicEntry :: menu.map (judge cable), some gen, some kind⟩

/-- An entry's kind (R2). -/
def Entry.kind (e : Entry) : OfferKind :=
  match e.sent with
  | .basic => .basic
  | .offer (.fixed _ _) => .fixed
  | .offer (.range _ _ _) => .range

/-- The kind of the entry at an index (R10); BASIC where the table has none.  DESIGN CHOICE (assumption log 18): R10 copies
the kind of the claimed entry and gives none where a shorter menu of the same generation has replaced it. -/
def OfferTable.kindAt (t : OfferTable) (i : Nat) : OfferKind := (t.entries[i]?.map Entry.kind).getD .basic

/-! ### Stages 1 to 3 of the budget computation -/

/-- The effective current Ieff of an entry (R26). -/
def Entry.effective (e : Entry) (cable : Nat) : Nat :=
  match e.kind with
  | .basic => min basicCurrent (min cable portCurrent)
  | .fixed => min (e.clampedCurrent.getD 0) (min cable portCurrent)
  | .range => min cable portCurrent

/-- A current derated: floor(I × d / 1000) × 10 (R26). -/
def derated (current derate : Nat) : Nat := current * derate / 1000 * 10

/-- Committed power at a voltage and a current: floor(V × I / 1000) mW (R9, R135). -/
def powerAt (vop current : Nat) : Nat := vop * current / 1000

/-- An offer's figures: its index, Vop, derated current Ider and usable power U (R26, R27). -/
structure OfferFigures where
  index : Nat
  vop : Nat
  ider : Nat
  usable : Nat
  deriving DecidableEq, Repr

/-- The figures of an entry; none where it is INELIGIBLE (R26, R27). -/
def Entry.figures (e : Entry) (index cable derate : Nat) : Option OfferFigures :=
  match e.eligibility, e.vop with
  | .ineligible, _ => none
  | _, none => none
  | _, some vop =>
    let ider := derated (e.effective cable) derate
    let usable := match e.kind with
      | .range => min (e.clampedPower.getD 0) (powerAt vop ider)
      | .basic | .fixed => powerAt vop ider
    some ⟨index, vop, ider, usable⟩

/-- Is offer `a` better than the offer `b` of a lower index (R28)? -/
def OfferFigures.better (a b : OfferFigures) : Bool :=
  b.usable < a.usable || (a.usable = b.usable && a.vop < b.vop)

/-- The best of the figures of entries in index order (R28). -/
def bestOf (cable derate : Nat) : List (Entry × Nat) → Option OfferFigures → Option OfferFigures
  | [], best => best
  | (e, i) :: rest, best =>
    bestOf cable derate rest
      (match e.figures i cable derate, best with
        | some f, some b => if f.better b then some f else best
        | some f, none => some f
        | none, _ => best)

/-- A port's best offer (R28). -/
def PortUnit.best (u : PortUnit) : Option OfferFigures :=
  bestOf u.cableCurrent u.derate u.table.entries.zipIdx none

/-- The power of the denial cap, where it applies: only in the table's generation (R21, R29). -/
def PortUnit.denialBound (u : PortUnit) : Option Nat :=
  match u.denialCap with
  | some c => if c.gen = u.table.gen then some c.power else none
  | none => none

/-- A power lowered by a cap that applies. -/
def capped (power : Nat) : Option Nat → Nat
  | some c => min power c
  | none => power

/-- The port figure Up from the best offer's U (R29). -/
def PortUnit.figureOf (u : PortUnit) (usable : Nat) : Nat := capped (capped usable u.denialBound) u.droopCap

end Sys2Proof.Machine
end

