-- ==== Sys2Proof/Machine/Planner.lean ====
section
/-! DEFINITION. The Budget Planner (chapter 2): from the records at a take to a plan.  Stages 1 to 3 are in
Offers.lean. -/

namespace Sys2Proof.Machine

/-- A port's part (R25). -/
def PortUnit.part (u : PortUnit) : Part :=
  match u.state with
  | .standby | .feeding => .takesPart
  | .discover | .claiming | .switching | .faulted => if u.contract.isSome then .held else .none
  | .off | .empty | .debounce => .none

/-! ### Stage 4: order -/

/-- A TAKES_PART port in the order: its rank as read, its ordering key, its figure and its best offer. -/
structure Ordered where
  port : PortId
  rank : Nat
  key : Nat
  figure : Nat
  best : OfferFigures
  deriving DecidableEq, Repr

/-- The ordering key: the incumbency key of a port in FEEDING, Up for one in STANDBY (R30). -/
def orderKey (state : PortState) (figure : Nat) : Nat :=
  if state = .feeding then figure * 110 / 100 else figure

/-- A port's place keys; nothing for a port that takes no part (R25, R30). -/
def State.ordered (s : State) (p : PortId) : Option Ordered :=
  let u := s.unit p
  match u.part, u.best with
  | .takesPart, some b =>
    some ⟨p, s.rankRead p, orderKey u.state (u.figureOf b.usable), u.figureOf b.usable, b⟩
  | _, _ => none

/-- Does `a` stand before `b` (R30)? -/
def Ordered.before (a b : Ordered) : Bool :=
  a.rank < b.rank || (a.rank = b.rank &&
    (b.key < a.key || (a.key = b.key && a.port.number < b.port.number)))

/-- Insertion at the place the keys of R30 give. -/
def insertOrdered (x : Ordered) : List Ordered → List Ordered
  | [] => [x]
  | y :: rest => if x.before y then x :: y :: rest else y :: insertOrdered x rest

/-- The order of the TAKES_PART ports (R30). -/
def State.order (s : State) : List Ordered :=
  (PortId.all.filterMap s.ordered).foldl (fun l x => insertOrdered x l) []

/-! ### Stage 5: allocation -/

/-- The channels bound to ports that satisfy `f`. -/
def State.channelsBoundTo (s : State) (f : PortId → Bool) : Nat :=
  ([s.path.a, s.path.b].filter fun c => (c.bound.map f).getD false).length

/-- The committed power of a port's contract, or 0 without one. -/
def PortUnit.committed (u : PortUnit) : Nat := (u.contract.map Contract.power).getD 0

/-- Is the port HELD (R25)? -/
def State.isHeld (s : State) (p : PortId) : Bool := (s.unit p).part == .held

/-- The power H of the HELD ports' contracts (R31). -/
def State.heldPower (s : State) : Nat :=
  ((PortId.all.filter s.isHeld).map fun p => (s.unit p).committed).sum

/-- The power to be shared T (R31). -/
def State.sharedPower (s : State) : Nat := min s.mode.demand s.mode.limit - s.heldPower

/-- The slots open to candidates (R31). -/
def State.slots (s : State) : Nat := 2 - s.channelsBoundTo s.isHeld

/-- The second candidate's allocation from the remainder (R32). -/
def secondShare (slots remainder figure : Nat) : Nat :=
  if slots = 2 ∧ minShare ≤ remainder then min remainder figure else 0

/-- The candidates' allocations (R32). -/
def allocate (slots power : Nat) : List Ordered → List (PortId × Nat)
  | [] => []
  | [a] => if slots = 0 then [] else [(a.port, min power a.figure)]
  | a :: b :: _ =>
    if slots = 0 then []
    else
      let first := min power a.figure
      [(a.port, first), (b.port, secondShare slots (power - first) b.figure)]

/-- A port's allocation, 0 where it is not among the allocated. -/
def allocationOf (l : List (PortId × Nat)) (p : PortId) : Nat :=
  ((l.find? fun x => x.1 = p).map Prod.snd).getD 0

/-! ### Stage 6: claim current -/

/-- A target: allocation, claim current and committed power. -/
structure Target where
  allocation : Nat
  current : Nat
  power : Nat
  deriving DecidableEq, Repr

/-- The claim current before the minimum claim is tested (R33, steps 1 and 2). -/
def claimCurrent (allocation vop ider : Nat) : Nat := min ider (allocation * 1000 / vop / 10 * 10)

/-- An allocation turned into a target (R33). -/
def targetOf (allocation : Nat) (b : OfferFigures) : Target :=
  let ic := claimCurrent allocation b.vop b.ider
  if ic < minClaim then ⟨0, 0, 0⟩ else ⟨allocation, ic, powerAt b.vop ic⟩

/-! ### Stage 7: classification -/

/-- The terms a step would bring about. -/
structure Terms where
  index : Nat
  gen : Option Gen
  vop : Nat
  current : Nat
  power : Nat
  deriving DecidableEq, Repr

/-- Are the contract's terms other than its power those of the target? -/
def Contract.sameTerms (c : Contract) (t : Terms) : Bool :=
  c.index = t.index && c.gen = t.gen && c.vop = t.vop && c.current = t.current

/-- The table of R34: the step that takes a contract to a target, or none. -/
def classify (contract : Option Contract) (t : Terms) : Option Action :=
  match contract with
  | none => if t.power = 0 then none else some .new
  | some c =>
    if t.power = 0 then some .fin
    else if t.power < c.power then some .lower
    else if c.power < t.power then some .raise
    else if c.sameTerms t then none
    else some .restate

/-- A step's fields (R24): an END has no index and no voltage, and targets of 0. -/
def stepOf (p : PortId) (t : Terms) : Action → PlanStep
  | .fin => ⟨p, .fin, none, t.gen, none, 0, 0⟩
  | a => ⟨p, a, some t.index, t.gen, some t.vop, t.current, t.power⟩

/-- A port's step, if any, and its target row (R24, R34). -/
def State.planPort (s : State) (order : List Ordered) (shares : List (PortId × Nat)) (p : PortId) :
    Option PlanStep × TargetRow :=
  let u := s.unit p
  match order.find? fun x => x.port = p with
  | some x =>
    let t := targetOf (allocationOf shares p) x.best
    let terms : Terms := ⟨x.best.index, u.table.gen, x.best.vop, t.current, t.power⟩
    let action := classify u.contract terms
    (action.map (stepOf p terms),
      ⟨.takesPart, some x.figure, some x.best.index, t.allocation, t.current, t.power,
       (action.map Disposition.step).getD .noStep⟩)
  | none => (none, ⟨u.part, none, none, 0, 0, 0, .noStep⟩)

/-! ### Finishing the plan -/

/-- The plan while it is finished: its steps in port-number order and its rows. -/
structure Draft where
  steps : List PlanStep
  rows : PerPort TargetRow
  deriving DecidableEq, Repr

/-- Remove a port's step, its row taking the disposition WITHHELD (R36, R38).  DESIGN CHOICE (assumption log 21): the row
keeps the allocation, Ic and Pt that Stage 6 gave it; R36 says only that the disposition changes and that the power is
left unallocated. -/
def Draft.withhold (d : Draft) (p : PortId) : Draft :=
  ⟨d.steps.filter fun x => x.port != p,
   d.rows.set p { d.rows.get p with disposition := .withheld }⟩

/-- Has the port a step of this action? -/
def Draft.has (d : Draft) (a : Action) (p : PortId) : Bool :=
  d.steps.any fun x => x.port = p && x.action = a

/-- The draft with the steps of some ports withheld. -/
def Draft.withholdAll (d : Draft) (f : PortId → Bool) : Draft :=
  (PortId.all.filter f).foldl Draft.withhold d

/-- Is the plan reduce-only (R36)? -/
def Arbiter.reduces (a : Arbiter) (l : Level) : Bool :=
  decide (Level.loss.number ≤ l.number) && (a.gainMasked || a.changeMasked)

/-- R36: a reduce-only plan loses its NEW and RAISE steps. -/
def Draft.reduce (d : Draft) (reduces : Bool) : Draft :=
  if reduces then d.withholdAll fun p => d.has .new p || d.has .raise p else d

/-- Is the port bound to a channel? -/
def State.isBound (s : State) (p : PortId) : Bool := s.path.a.bound = some p || s.path.b.bound = some p

/-- Is there a gap in feed (R37)? -/
def State.gap (s : State) (d : Draft) : Bool :=
  s.path.batteryPresent = some false &&
  (PortId.all.any fun p => s.isBound p && (s.unit p).part == .takesPart) &&
  (PortId.all.all fun p => !s.isBound p || d.has .fin p)

/-- Is a channel unbound? -/
def State.channelFree (s : State) : Bool := s.path.a.bound.isNone || s.path.b.bound.isNone

/-- The END of a port removed, its contract KEPT (R38, R39). -/
def State.keep (s : State) (d : Draft) (p : PortId) : Draft :=
  match (s.unit p).contract with
  | some c =>
    ⟨d.steps.filter fun x => x.port != p,
     d.rows.set p { d.rows.get p with
       allocation := c.power, current := c.current, power := c.power, disposition := .kept }⟩
  | none => d

/-- The earliest port of the order with a property. -/
def earliest (order : List Ordered) (f : PortId → Bool) : Option PortId :=
  (order.find? fun x => f x.port).map Ordered.port

/-- What the battery-absent adjustments leave: the draft, the NEW to be moved ahead, the deferral mark. -/
structure Adjusted where
  draft : Draft
  ahead : Option PortId
  deferral : Bool
  deriving DecidableEq, Repr

/-- The battery-absent adjustments (R37 to R39). -/
def State.adjust (s : State) (order : List Ordered) (d : Draft) : Adjusted :=
  if s.gap d then
    match earliest order (d.has .new), earliest order s.isBound with
    | some n, kept =>
      if s.channelFree then ⟨d, some n, false⟩
      else
        let k := match kept with
          | some p => s.keep d p
          | none => d
        ⟨k.withholdAll fun p => k.has .new p && p != n, none, true⟩
    | none, some p => ⟨s.keep d p, none, false⟩
    | none, none => ⟨d, none, false⟩
  else ⟨d, none, false⟩

/-- Stage 8: the steps in their order (R40). -/
def Adjusted.steps (a : Adjusted) : List PlanStep :=
  let moved (x : PlanStep) : Bool := a.ahead == some x.port
  let group (f : Action → Bool) : List PlanStep := a.draft.steps.filter fun x => f x.action && !moved x
  a.draft.steps.filter moved ++ group (· == .fin) ++ group (fun x => x == .lower || x == .restate) ++
    group (· == .new) ++ group (· == .raise)

/-- The plan for a take of level `l` (R23, R24, R41). -/
def State.plan (s : State) (l : Level) : Plan :=
  let order := s.order
  let shares := allocate s.slots s.sharedPower (order.filter fun x => decide (0 < x.figure))
  let port := s.planPort order shares
  let draft : Draft :=
    ⟨PortId.all.filterMap fun p => (port p).1,
     ⟨(port .p1).2, (port .p2).2, (port .p3).2, (port .p4).2⟩⟩
  let reduces := s.arb.reduces l
  let a := s.adjust order (draft.reduce reduces)
  ⟨a.steps, a.draft.rows, reduces, a.deferral⟩

end Sys2Proof.Machine
end

