-- ==== Sys2Proof/Machine/Line.lean ====
section
/-! DEFINITION. The Line Interface's shared operations (chapter 6): hand-over and withdrawal of a frame (R122,
R124), the part's own break (R125), and what a received byte leaves behind (R117).

Moments are values of the bit timer.  DESIGN CHOICE (assumption log 5): the manual gives the bit timer no
unit and no width; here it counts microseconds from the start of STARTING. -/

namespace Sys2Proof.Machine

/-- The bits 1 at the top of a byte, which a line sends last (R117). -/
def topOnes : Nat → Byte → Nat
  | 0, _ => 0
  | n + 1, b => if b.msb then 1 + topOnes n (b <<< 1) else 0

/-- How long before the end of its stop bit a byte's last rise lies (R117). -/
def riseBeforeEnd (b : Byte) : Nat := bitUs * (1 + topOnes 8 b)

/-- The last moment at which the low run that is being counted is known to run: its start, or the detection of its break
(R126). -/
def LineInterface.lowShown (l : LineInterface) : Option Nat :=
  l.lowStart.map fun fall => if l.breakReported then fall + breakDetectUs else fall

/-- The last moment of the line that the part has placed: the low run's, or else the rise to quiet (at the release of its own
break or at a move out of OFF, that moment: R116, R125, R126), and the end of the byte before, whose stop bit reads to
its end (R117).  The edges of a byte come no earlier. -/
def LineInterface.lastSeen (l : LineInterface) : Nat :=
  max (l.lowShown.getD (l.quietStart.getD 0)) (l.lastByteEnd.getD 0)

/-- A byte with a high stop bit has ended: last byte end is now, and the line last rose within it. -/
def LineInterface.byteTaken (l : LineInterface) (now : Nat) (b : Byte) : LineInterface :=
  { l with
    lastByteEnd := some now, quietStart := some (max (now - riseBeforeEnd b) l.lastSeen), lowStart := none
    breakReported := false }

/-- The bits of a byte in the order the line carries them (R117): the start bit, low; the data bits from the
lowest; the stop bit. -/
def byteBits (b : Byte) : List Bool := false :: ((List.range 8).map fun i => b.getLsbD i) ++ [true]

/-- The bits of a frame's bytes, back to back (R123). -/
def frameBits (frame : List Byte) : List Bool := frame.flatMap byteBits

/-- Is the part holding its own break? -/
def LineInterface.isBreaking (l : LineInterface) : Bool :=
  match l.transmitter with
  | .breaking _ => true
  | _ => false

/-- Is the part putting a frame on the line? -/
def LineInterface.isSending (l : LineInterface) : Bool :=
  match l.transmitter with
  | .sending _ => true
  | _ => false

/-- The line has risen, no party pulling it (R126). -/
def LineInterface.rise (l : LineInterface) (now : Nat) : LineInterface :=
  { l with quietStart := some now, lowStart := none }

/-- The line has fallen: a low run begins, unless one is running (R126). -/
def LineInterface.fall (l : LineInterface) (now : Nat) : LineInterface :=
  match l.lowStart with
  | some _ => l
  | none => { l with lowStart := some now, breakReported := false }

/-- The edges that bits leave behind, the first of them from `t` on (R117, R126). -/
def LineInterface.follow (l : LineInterface) (t : Nat) : List Bool → LineInterface
  | [] => l
  | high :: rest =>
    (if high then (if l.lowStart.isSome then l.rise t else l) else l.fall t).follow (t + bitUs) rest

/-- The edges of the held frame's bits that the part has sent by now (R123).  While the part is SENDING the fields
stand as they were at the start of the frame: its edges are counted when it stops (assumption log 13). -/
def LineInterface.sentUntil (l : LineInterface) (now : Nat) : LineInterface :=
  match l.transmitter with
  | .sending start => l.follow start ((frameBits (l.held.getD [])).take ((now - start) / bitUs + 1))
  | .idle | .waiting | .backoff | .breaking _ => l

/-- The part stops pulling within its frame: the line rises where it was the part alone that pulled (R124,
R126). -/
def LineInterface.stops (l : LineInterface) (now : Nat) (low : Bool) : LineInterface :=
  if l.isSending then
    let l := l.sentUntil now
    if l.lowStart.isSome ∧ low = false then l.rise now else l
  else l

/-- The line has been found low at the bit that the part sends: it fell at that bit, unless it was low before
(R123, R126). -/
def LineInterface.metLow (l : LineInterface) (now : Nat) : LineInterface :=
  match l.transmitter with
  | .sending start =>
    let sent := (now - start) / bitUs
    (l.follow start ((frameBits (l.held.getD [])).take sent)).fall (start + bitUs * sent)
  | .idle | .waiting | .backoff | .breaking _ => l

/-- Hand a frame over (R122): it is held, and waits for the line or for the end of the part's break. -/
def LineInterface.handOver (l : LineInterface) (frame : List Byte) : LineInterface :=
  { l with
    held := some frame, collisions := 0
    transmitter := if l.isBreaking then l.transmitter else .waiting }

/-- Withdraw the held frame (R124). -/
def LineInterface.withdraw (l : LineInterface) : LineInterface :=
  { l with
    held := none, collisions := 0
    transmitter := if l.isBreaking then l.transmitter else .idle }

/-- Begin the part's own break (R125); one already driven is not lengthened. -/
def LineInterface.startBreak (l : LineInterface) (now : Nat) : LineInterface :=
  { l.sentUntil now with
    reception := .hunting, lowStart := none
    transmitter := if l.isBreaking then l.transmitter else .breaking now }

/-- The move into OFF (R116); a break being driven is held to its end. -/
def LineInterface.intoOff (l : LineInterface) : LineInterface :=
  { l.withdraw with reception := .hunting, quietStart := none, lowStart := none, lastByteEnd := none }

/-- A move out of OFF: the line is taken as it then reads (R116).  A break that the part still drives holds it low, and
low-run start is absent until its release (R125). -/
def LineInterface.outOfOff (l : LineInterface) (now : Nat) (low : Bool) : LineInterface :=
  if l.isBreaking then l
  else if low then { l with lowStart := some now, breakReported := false }
  else { l with quietStart := some now }

/-- The bytes of a reception in progress. -/
def Reception.isInFrame : Reception → Bool
  | .hunting => false
  | .inFrame _ => true

/-- The part sends a break on a SMART port's line (R108); a BASIC_ONLY port sends none. -/
def State.sendBreak (s : State) (p : PortId) : State :=
  if (s.unit p).mode = .smart then s.modLine p fun l => l.startBreak s.clock.bit else s

/-- Note whether another party pulls port `p`'s dialogue line. -/
def State.setLineLow (s : State) (p : PortId) (low : Bool) : State :=
  s.modPins fun x => { x with lineLow := x.lineLow.set p low }

/-- The line of port `p` is high, no other party pulling it: where it was low it rises now. -/
def State.lineHigh (s : State) (p : PortId) : State :=
  if s.pins.lineLow.get p then
    (s.setLineLow p false).modLine p fun l => if l.isBreaking then l else l.rise s.clock.bit
  else s

end Sys2Proof.Machine
end

