-- ==== Sys2Proof/Machine/Path.lean ====
section
/-! DEFINITION. The Path Controller's shared operations (chapter 7): channels, the raise, immediate cuts, the
opening of a path, binding and the draw limits that a write of terms leaves. -/

namespace Sys2Proof.Machine

/-- The two channels. -/
inductive ChannelId where
  | a | b
  deriving DecidableEq, Repr

/-- The other channel. -/
def ChannelId.other : ChannelId → ChannelId
  | .a => .b
  | .b => .a

/-- A channel record. -/
def State.chan (s : State) : ChannelId → Channel
  | .a => s.path.a
  | .b => s.path.b

/-- Update a channel record. -/
def State.modChan (s : State) (c : ChannelId) (f : Channel → Channel) : State :=
  match c with
  | .a => s.modPath fun x => { x with a := f x.a }
  | .b => s.modPath fun x => { x with b := f x.b }

/-- The channel a port is bound to. -/
def State.channelOf (s : State) (p : PortId) : Option ChannelId :=
  if s.path.a.bound = some p then some .a
  else if s.path.b.bound = some p then some .b
  else none

/-- The lowest unbound channel (R131). -/
def State.freeChannel (s : State) : Option ChannelId :=
  if s.path.a.bound.isNone then some .a
  else if s.path.b.bound.isNone then some .b
  else none

/-- Set the draw limit of a port's channel to a function of it; nothing where the port is not bound. -/
def State.modDraw (s : State) (p : PortId) (f : Nat → Nat) : State :=
  match s.channelOf p with
  | some c => s.modChan c fun x => { x with draw := f x.draw }
  | none => s

/-- The draw limit of a port's channel, 0 where the port is not bound. -/
def State.drawOf (s : State) (p : PortId) : Nat :=
  match s.channelOf p with
  | some c => (s.chan c).draw
  | none => 0

/-- The contract's Ider: the offer current at the port's present derate (R128). -/
def State.contractIder (s : State) (p : PortId) : Nat :=
  derated ((s.portPath p).offerCurrent.getD 0) (s.unit p).derate

/-- The operating voltage of the contract of a channel's port. -/
def State.chanVop (s : State) (c : ChannelId) : Nat :=
  match (s.chan c).bound with
  | some p => ((s.unit p).contract.map Contract.vop).getD 0
  | none => 0

/-- A channel's committed power; 0 mW for an unbound channel (R135). -/
def State.chanPower (s : State) (c : ChannelId) : Nat := powerAt (s.chanVop c) (s.chan c).draw

/-- The headroom of a channel at a voltage (R136). -/
def State.headroom (s : State) (c : ChannelId) (vop : Nat) : Nat :=
  (s.mode.limit - s.chanPower c.other) * 1000 / vop / 10 * 10

/-- A current bounded by a ceiling, where one is present (R138). -/
def underCeiling (current : Nat) : Option Nat → Nat
  | some c => min current c
  | none => current

/-- The raise of one channel (R137). -/
def State.raiseChannel (s : State) (c : ChannelId) : State :=
  match (s.chan c).bound with
  | none => s
  | some p =>
    match (s.unit p).contract with
    | none => s
    | some k =>
      if (s.unit p).state = .feeding ∨ (s.unit p).state = .discover then
        let target := underCeiling (min k.current (s.contractIder p)) (s.portPath p).ceiling
        let reach := min target (s.headroom c k.vop)
        if (s.chan c).draw < reach then s.modChan c fun x => { x with draw := reach } else s
      else s

/-- The raise: channel A, then channel B (R137). -/
def State.raise (s : State) : State := (s.raiseChannel .a).raiseChannel .b

/-- The sum of the committed powers of all contracts. -/
def State.contractSum (s : State) : Nat := (PortId.all.map fun p => ((s.unit p).contract.map Contract.power).getD 0).sum

/-- The posting after an immediate cut: SHED GLOBAL where the contract sum exceeds L, else `otherwise`
(R139). -/
def State.postCut (s : State) (otherwise : Option PendingEntry) : State :=
  if s.mode.limit < s.contractSum then s.post .shed .whole
  else match otherwise with
    | some e => s.post e.level e.origin
    | none => s

/-- Open a port's path (R134), with the accumulator and run count (R149) and the clean run (R86) that go
with it, and the raise where a channel was unbound. -/
def State.openPath (s : State) (p : PortId) : State :=
  let bound := s.channelOf p
  let s := s.modPortPath p fun _ => ⟨.openPath, none, none, none⟩
  let s := s.modMeter p fun m => { m with excess := 0, droopRun := 0 }
  let s := s.modUnit p fun u => { u with cleanRunStart := none }
  match bound with
  | some c => (s.modChan c fun _ => ⟨none, 0⟩).raise
  | none => s

/-- The offer current of a contract's offer, as the table and cable record stand (R128).  Where the table has no entry at
a FIXED contract's index, the port rating stands for its clamped current (DESIGN CHOICE, assumption log 18). -/
def PortUnit.offerCurrentOf (u : PortUnit) (k : Contract) : Nat :=
  match k.kind with
  | .basic => min basicCurrent (min u.cableCurrent portCurrent)
  | .fixed =>
    min (((u.table.entries[k.index]?).bind Entry.clampedCurrent).getD portCurrent)
      (min u.cableCurrent portCurrent)
  | .range => min u.cableCurrent portCurrent

/-- Write the offer current of a port's contract (R128). -/
def State.writeOfferCurrent (s : State) (p : PortId) : State :=
  match (s.unit p).contract with
  | some k => s.modPortPath p fun x => { x with offerCurrent := some ((s.unit p).offerCurrentOf k) }
  | none => s

/-- Remove a port's ceiling. -/
def State.dropCeiling (s : State) (p : PortId) : State :=
  s.modPortPath p fun x => { x with ceiling := none }

/-- The draw limit after a write of new terms on a bound port: never raised (R136). -/
def State.boundDraw (s : State) (p : PortId) : State :=
  match (s.unit p).contract, s.channelOf p with
  | some k, some c =>
    s.modDraw p fun d => min (min d k.current) (min (s.contractIder p) (s.headroom c k.vop))
  | _, _ => s

/-- The Path Controller at a write of new terms (R128, R136); a RATING leaves the ceiling. -/
def State.pathTerms (s : State) (p : PortId) (rating : Bool) : State :=
  let s := s.writeOfferCurrent p
  let s := if rating then s else s.dropCeiling p
  s.boundDraw p

/-- Bind a port to a channel and begin its precharge (R131). -/
def State.beginPrecharge (s : State) (p : PortId) (c : ChannelId) : State :=
  (s.modChan c fun _ => ⟨some p, 0⟩).modPortPath p fun x =>
    { x with state := .precharge, prechargeStart := some s.now }

/-- Does the port's measured voltage lie in its contract's window (R130)? -/
def State.voltageOk (s : State) (p : PortId) : Bool :=
  match (s.unit p).contract with
  | some k => inWindow k.vop (s.voltage p)
  | none => false

/-- Close a path at the end of precharge: clean-run start (R86) and the draw limit under the headroom
rule (R136). -/
def State.closePath (s : State) (p : PortId) : State :=
  let s := s.modPortPath p fun x => { x with state := .closed, prechargeStart := none }
  let s := s.modUnit p fun u => { u with cleanRunStart := some s.now }
  match (s.unit p).contract, s.channelOf p with
  | some k, some c =>
    s.modDraw p fun _ =>
      underCeiling (min (min k.current (s.contractIder p)) (s.headroom c k.vop)) (s.portPath p).ceiling
  | _, _ => s

/-- Is the port's path CLOSED? -/
def State.isClosed (s : State) (p : PortId) : Bool := (s.portPath p).state == .closed

/-- Is the port's path a sole feed (R143)? -/
def State.soleFeed (s : State) (p : PortId) : Bool :=
  s.isClosed p && (PortId.all.all fun q => q == p || !s.isClosed q) &&
    s.path.batteryPresent == some false

/-- One scaled draw limit: floor(draw × Lnew / S / 10) × 10 (R140). -/
def scaledDraw (draw limit sum : Nat) : Nat := draw * limit / sum / 10 * 10

/-- What the Path Controller does when L has been lowered to the limit now in force (R140): both channels
are scaled where their sum was above it. -/
def State.scale (s : State) : State :=
  let sum := s.chanPower .a + s.chanPower .b
  if s.mode.limit < sum then
    s.modPath fun x => { x with
      a := { x.a with draw := scaledDraw x.a.draw s.mode.limit sum }
      b := { x.b with draw := scaledDraw x.b.draw s.mode.limit sum } }
  else s

end Sys2Proof.Machine
end

