-- ==== Sys2Proof/Machine/Ports.lean ====
section
/-! DEFINITION. The Port Unit's shared operations: exchanges handed over and given up (R92, R95, R99, R113), a
contract's end and demotion (R13 to R15), entry to and exit from DISCOVER (R74 to R77), the moves
into and out of OFF, the storing of an OFFERS (R3, R18), and a wake (R177). -/

namespace Sys2Proof.Machine

/-! ### Which ports act on frames -/

/-- Is the port in DISCOVER through FAULTED? -/
def PortState.isProven : PortState → Bool
  | .off | .empty | .debounce => false
  | .discover | .standby | .claiming | .switching | .feeding | .faulted => true

/-- Does the port speak: SMART and not legacy? -/
def PortUnit.speaks (u : PortUnit) : Bool := u.mode == .smart && !u.legacy

/-- Does the port act on frames and breaks (R94, R109)? -/
def PortUnit.listens (u : PortUnit) : Bool := u.speaks && u.state.isProven

/-! ### Exchanges -/

/-- Move a port to a state. -/
def State.setPortState (s : State) (p : PortId) (x : PortState) : State :=
  s.modUnit p fun u => { u with state := x }

/-- Port `p`'s line with the held frame withdrawn: a frame being sent is stopped at once (R116, R124). -/
def State.withdrawn (s : State) (p : PortId) : LineInterface :=
  ((s.unit p).line.stops s.clock.bit (s.pins.lineLow.get p)).withdraw

/-- Give up the outstanding exchange; a QUERY's or CLAIM's frame not yet sent whole is withdrawn (R113,
R124). -/
def State.giveUp (s : State) (p : PortId) : State :=
  match (s.unit p).exchange with
  | some (.query _ _) | some (.claim _ _ _ _ _ _ _) =>
    s.modUnit p fun u => { u with exchange := none, line := s.withdrawn p }
  | _ => s.modUnit p fun u => { u with exchange := none }

/-- Hand over a QUERY attempt, its wait beginning (R95). -/
def State.sendQuery (s : State) (p : PortId) (attempt : Nat) : State :=
  s.modUnit p fun u => { u with
    exchange := some (.query attempt (some s.now)), line := u.line.handOver queryFrame }

/-- Make a CLAIM outstanding, its frame handed over and its wait beginning (R99, R100); the port is in
CLAIMING. -/
def State.sendClaim (s : State) (p : PortId) (purpose : Purpose) (index current vop : Nat)
    (gen : Option Gen) (attempt : Nat) : State :=
  s.modUnit p fun u => { u with
    state := .claiming
    exchange := some (.claim purpose index current vop gen attempt s.now)
    line := u.line.handOver (claimFrame index current vop gen) }

/-! ### The contract -/

/-- Write a port's contract; a change of operating voltage sets the droop run count to 0 (R154). -/
def State.putContract (s : State) (p : PortId) (k : Contract) : State :=
  let moved := (s.unit p).contract.any fun old => old.vop != k.vop
  let s := s.modUnit p fun u => { u with contract := some k }
  if moved then s.modMeter p fun m => { m with droopRun := 0 } else s

/-- Update a port's contract in place, where it holds one. -/
def State.modContract (s : State) (p : PortId) (f : Contract → Contract) : State :=
  s.modUnit p fun u => { u with contract := u.contract.map f }

/-- A contract ends (R15): it becomes absent, the exchange is given up, the path opens and CONTRACT is
set. -/
def State.endContract (s : State) (p : PortId) : State :=
  let s := s.giveUp p
  let s := s.modUnit p fun u => { u with contract := none }
  (s.openPath p).setFlag (.port p .contract)

/-- The Basic terms a demotion writes (R13). -/
def PortUnit.basicTerms (u : PortUnit) (now : Time) : Contract :=
  let current := min basicCurrent u.cableCurrent
  { index := 0, kind := .basic, gen := u.table.gen, vop := basicVoltage, current := current
    power := powerAt basicVoltage current, since := now, change := none, window := none }

/-- A contract is demoted to Basic (R13, R144): the path stays CLOSED, and CONTRACT is set. -/
def State.demote (s : State) (p : PortId) : State :=
  let s := s.giveUp p
  let s := s.putContract p ((s.unit p).basicTerms s.now)
  let s := (s.writeOfferCurrent p).dropCeiling p
  let s := s.modDraw p fun _ => min basicCurrent (s.contractIder p)
  s.setFlag (.port p .contract)

/-- A contract ends, or is demoted where its path is a sole feed (R13, R15). -/
def State.endOrDemote (s : State) (p : PortId) : State :=
  if s.soleFeed p then s.demote p else s.endContract p

/-- The return-to-Basic claim of a demotion (R14). -/
def State.returnToBasic (s : State) (p : PortId) : State :=
  match (s.unit p).contract with
  | some k => s.sendClaim p .ret 0 k.current basicVoltage (s.unit p).table.gen 1
  | none => s

/-- A contract ends and its port goes to STANDBY; or it is demoted, and the port claims Basic, or goes to
FEEDING where it does not speak (R13, R14, R15). -/
def State.loseTerms (s : State) (p : PortId) : State :=
  if s.soleFeed p then
    let s := s.demote p
    if (s.unit p).speaks then s.returnToBasic p else s.setPortState p .feeding
  else (s.endContract p).setPortState p .standby

/-! ### Discovery -/

/-- A port leaves DISCOVER (R75, R77): to STANDBY without a contract, to FEEDING with a kept Basic one; GAIN
is posted for it either way. -/
def State.leaveDiscover (s : State) (p : PortId) : State :=
  let s := s.giveUp p
  let s := s.modUnit p fun u => { u with
    discoveryStart := none, queryEnded := true
    state := if u.contract.isSome then .feeding else .standby }
  s.post .gain (.port p)

/-- Discovery ends once the query has ended and an OFFERS has been stored (R75). -/
def State.endDiscovery (s : State) (p : PortId) : State :=
  let u := s.unit p
  if u.state = .discover ∧ u.queryEnded ∧ u.table.gen.isSome then s.leaveDiscover p else s

/-- The entry effects of DISCOVER (R74), and what discovery then does: a query on a port that speaks,
handed over once the part's break has ended (R95); a skipped discovery on any other (R76). -/
def State.enterDiscover (s : State) (p : PortId) : State :=
  let s := s.modUnit p fun u => { u with
    state := .discover, table := discoverTable, cable := none, denialCap := none, droopCap := none
    discoveryStart := some s.now, queryEnded := false, resyncStart := none }
  if (s.unit p).speaks then
    if (s.unit p).line.isBreaking then
      s.modUnit p fun u => { u with exchange := some (.query 1 none) }
    else s.sendQuery p 1
  else (s.modUnit p fun u => { u with legacy := true }).leaveDiscover p

/-- The query has ended (R95). -/
def State.endQuery (s : State) (p : PortId) : State :=
  let s := s.giveUp p
  (s.modUnit p fun u => { u with queryEnded := true }).endDiscovery p

/-- A QUERY attempt has ended without a RATING (R95): attempt 2 is handed over, or the query ends. -/
def State.queryAttemptEnds (s : State) (p : PortId) (attempt : Nat) : State :=
  if attempt = 1 then (s.giveUp p).sendQuery p 2 else s.endQuery p

/-! ### OFF, EMPTY and DEBOUNCE -/

/-- The records a port without a proven supply holds: none (R1, R7, R16, R21, R22, R92). -/
def PortUnit.cleared (u : PortUnit) (x : PortState) : PortUnit :=
  { u with
    state := x, table := .empty, cable := none, denialCap := none, droopCap := none
    discoveryStart := none, coolDownStart := none
    exchange := none, queryEnded := false, resyncStart := none }

/-- The move into EMPTY at a detach (R73, R116). -/
def State.intoEmpty (s : State) (p : PortId) : State :=
  s.modUnit p fun u => { u.cleared .empty with cleanRunStart := none, line := s.withdrawn p }

/-- The move into OFF (R71, R72, R116). -/
def State.intoOff (s : State) (p : PortId) : State :=
  s.modUnit p fun u => { u.cleared .off with
    cleanRunStart := none, presence := none, line := u.line.intoOff }

/-- A move out of OFF (R70 to R72, R116): EMPTY, or DEBOUNCE where the presence line is asserted. -/
def State.outOfOff (s : State) (p : PortId) : State :=
  let asserted := s.pins.presence.get p
  s.modUnit p fun u => { u with
    enabled := true
    state := if asserted then .debounce else .empty
    presence := some ⟨asserted, s.now⟩
    line := u.line.outOfOff s.clock.bit (s.pins.lineLow.get p) }

/-- Does the Presence Monitor see the line asserted? -/
def PortUnit.isPresent (u : PortUnit) : Bool := u.presence.any Presence.asserted

/-! ### Storing an OFFERS -/

/-- The validity test of R17, against the table now stored. -/
def OfferTable.verdict (t : OfferTable) (k : Contract) : Validity :=
  let e := t.entries[k.index]?
  let holds (f : Entry → Bool) : Validity := if e.any f then .valid else .invalid
  match k.kind with
  | .basic => .valid
  | .fixed => holds fun x =>
      x.kind == .fixed && x.eligibility != .ineligible && x.vop == some k.vop &&
        x.clampedCurrent.any fun i => k.current ≤ i
  | .range => holds fun x =>
      x.kind == .range && x.eligibility != .ineligible && x.vop == some k.vop &&
        x.clampedPower.any fun w => k.power ≤ w

/-- The Path Controller at an INVALID verdict (R18, R138, R139): the cut, the ceiling, and SHED GLOBAL where
the contract sum exceeds L. -/
def State.invalidCut (s : State) (p : PortId) : State :=
  let s := s.modDraw p (min basicCurrent)
  let ceiling := if s.isClosed p then s.drawOf p else basicCurrent
  let s := s.modPortPath p fun x => { x with ceiling := some ceiling }
  s.postCut none

/-- An OFFERS stored under a contract: the test, the window and the postings (R18, R77). -/
def State.testContract (s : State) (p : PortId) (k : Contract) : State :=
  match k.kind with
  | .basic =>
    let s := s.modContract p fun k => { k with gen := (s.unit p).table.gen }
    if (s.unit p).state = .discover then s else s.post .change (.port p)
  | .fixed | .range =>
    let verdict := (s.unit p).table.verdict k
    let s := s.modContract p fun k => { k with window := some ⟨s.now, verdict⟩ }
    match verdict with
    | .valid => s.post .change (.port p)
    | .invalid => (s.invalidCut p).post .loss (.port p)

/-- An OFFERS is stored (R3): the table, the caps (R21, R22), the resync's end (R103), and what follows for
the port. -/
def State.storeOffers (s : State) (p : PortId) (gen : Gen) (kind : SupplyKind)
    (menu : List SentOffer) : State :=
  let s := s.modUnit p fun u => { u with
    table := storedTable u.cableVoltage gen kind menu
    denialCap := if u.table.gen = some gen then u.denialCap else none
    droopCap := none
    resyncStart := none }
  match (s.unit p).contract with
  | some k => (s.testContract p k).endDiscovery p
  | none => if (s.unit p).state = .standby then s.post .change (.port p) else s.endDiscovery p

/-! ### A wake -/

/-- The six wake conditions (R177). -/
inductive WakeCondition where
  | attachAny | detachFeed | lineAny | link | railLow | batteryChange
  deriving DecidableEq, Repr

/-- Is a condition in the set? -/
def WakeSet.has (w : WakeSet) : WakeCondition → Bool
  | .attachAny => w.attachAny
  | .detachFeed => w.detachFeed
  | .lineAny => w.lineAny
  | .link => w.link
  | .railLow => w.railLow
  | .batteryChange => w.batteryChange

/-- A wake condition's event: it ends DORMANT where the wake set names it (R177). -/
def State.wake (s : State) (c : WakeCondition) : State :=
  if s.mode.power = .dormant ∧ s.mode.wakeSet.any (WakeSet.has · c) then
    (s.modMode fun m => { m with power := .active, wakeSet := none }).setFlag (.whole .wake)
  else s

end Sys2Proof.Machine
end

