-- ==== Sys2Proof/Machine/Rebalance.lean ====
section
/-! DEFINITION. The Budget Arbiter at work (chapter 3): a step's start and end (R51 to R55), what follows it
(R56), completion (R57, R58), abandonment (R60), and the line fault (R83), which ends a step. -/

namespace Sys2Proof.Machine

/-! ### The step in flight -/

/-- The step at the next step index, which is the step in flight where one is (R49, R56). -/
def InService.step (r : InService) : Option PlanStep := r.plan.steps[r.next]?

/-- Is a step in flight on the port? -/
def State.stepOn (s : State) (p : PortId) : Bool :=
  s.arb.inService.any fun r => r.inFlight && r.step.any fun x => x.port == p

/-- Update the in-service record, where it is present. -/
def State.modService (s : State) (f : InService → InService) : State :=
  s.modArb fun a => { a with inService := a.inService.map f }

/-- The step at the next step index takes a result and is in flight no more; the index advances (R56). -/
def State.endStep (s : State) (result : StepResult) : State :=
  s.modService fun r => { r with
    results := r.results.set r.next result, inFlight := false, next := r.next + 1 }

/-- The Arbiter writes a port's denial cap at a failed step (R21, R54). -/
def State.writeCap (s : State) (p : PortId) : State :=
  s.modUnit p fun u => { u with denialCap := some ⟨u.committed, u.table.gen⟩ }

/-- A step ends in one of its ways: the raise follows a DONE step (R52, R137), and a FAILED one writes the
denial cap (R54). -/
def State.closeStep (s : State) (p : PortId) : StepResult → State
  | .done => s.raise.endStep .done
  | .failed => (s.writeCap p).endStep .failed
  | other => s.endStep other

/-! ### Completion and abandonment -/

/-- Does a result count as a step done (R49)? -/
def StepResult.counts : StepResult → Bool
  | .done | .skipped | .failed | .aborted => true
  | .waiting | .inFlight => false

/-- The number of steps done (R49, R58). -/
def InService.stepsDone (r : InService) : Nat := (r.results.filter StepResult.counts).length

/-- The result of a rebalance that completes (R57). -/
def InService.result (r : InService) : RebalanceResult :=
  if r.plan.steps.isEmpty then .noChange
  else if r.results.any fun x => x == .skipped || x == .failed || x == .aborted then .partly
  else .done

/-- Write the last outcome of a record (R58). -/
def State.writeOutcome (s : State) (r : InService) (result : RebalanceResult) : State :=
  s.modArb fun a => { a with lastOutcome := some ⟨r.taken, result, r.stepsDone, s.now⟩ }

/-- CONTRACT is set for the port of every DONE step (R58). -/
def State.flagDone (s : State) (r : InService) : State :=
  (r.plan.steps.zip r.results).foldl
    (fun s x => if x.2 = .done then s.setFlag (.port x.1.port .contract) else s) s

/-- The last outcome with its event flags (R58). -/
def State.recordOutcome (s : State) (r : InService) (result : RebalanceResult) : State :=
  ((s.writeOutcome r result).setFlag (.whole .rebalance)).flagDone r

/-- One level's origins less others. -/
def OriginSet.minus (a b : OriginSet) : OriginSet :=
  ⟨a.whole && !b.whole, ⟨a.port.p1 && !b.port.p1, a.port.p2 && !b.port.p2, a.port.p3 && !b.port.p3,
    a.port.p4 && !b.port.p4⟩⟩

/-- The pending set less the covered entries whose level is not masked (R57). -/
def Arbiter.lessCovered (a : Arbiter) (covered : EntrySet) : EntrySet :=
  let less (l : Level) : OriginSet :=
    if a.masked l then a.pending.level l else (a.pending.level l).minus (covered.level l)
  ⟨less .shed, less .loss, less .change, less .gain⟩

/-- A rebalance completes (R57). -/
def State.complete (s : State) (r : InService) : State :=
  let s := s.modArb fun a => { a with pending := a.lessCovered r.covered }
  let s := s.recordOutcome r r.result
  let s := s.modArb fun a => { a with inService := none }
  if r.result = .partly ∨ r.plan.deferral then s.post .change .whole else s

/-- A rebalance is abandoned (R60). -/
def State.abandon (s : State) (r : InService) : State :=
  let s := s.modArb fun a => { a with inService := none }
  (s.post r.taken.level r.taken.origin).recordOutcome r .abandoned

/-- Is a preempting entry pending (R59)? -/
def State.preempted (s : State) (r : InService) : Bool :=
  s.takeable.any fun e => decide (r.taken.level.number < e.level.number)

/-! ### A step's start -/

/-- The terms of a step, for R34's table. -/
def PlanStep.terms (x : PlanStep) : Terms :=
  ⟨x.index.getD 0, x.gen, x.vop.getD 0, x.current, x.power⟩

/-- The re-validation of R51. -/
def State.revalidates (s : State) (x : PlanStep) : Bool :=
  let u := s.unit x.port
  u.table.gen == x.gen &&
  match x.action with
  | .new => u.state == .standby && u.contract.isNone && s.channelFree
  | a => u.state == .feeding && classify u.contract x.terms == some a

/-- The first stage of R131: the port is bound and its precharge begins, or the NEW has failed. -/
def State.acceptNew (s : State) (p : PortId) : Option State :=
  match s.voltageOk p, s.freeChannel with
  | true, some c => some (s.beginPrecharge p c)
  | _, _ => none

/-- A voltage-window failure of a NEW (R131): the contract ends, STANDBY, LOSS. -/
def State.failNew (s : State) (p : PortId) : State :=
  ((s.endContract p).setPortState p .standby).post .loss (.port p)

/-- The start of a NEW step (R10, R52): a claim, or the Basic contract and the voltage test. -/
def State.startNew (s : State) (x : PlanStep) : State × Option StepResult :=
  let u := s.unit x.port
  let index := x.index.getD 0
  if u.speaks ∧ index ≠ 0 then
    (s.sendClaim x.port .new index x.current (x.vop.getD 0) u.table.gen 1, none)
  else
    let s := s.putContract x.port
      { index := 0, kind := .basic, gen := u.table.gen, vop := basicVoltage, current := x.current
        power := powerAt basicVoltage x.current, since := s.now, change := none, window := none }
    let s := (s.writeOfferCurrent x.port).setPortState x.port .switching
    match s.acceptNew x.port with
    | some s => (s, none)
    | none => (s.failNew x.port, some .failed)

/-- The start of a change step (R11, R52): the pending change and the claim, or the terms at once. -/
def State.startChange (s : State) (x : PlanStep) (purpose : Purpose) : State × Option StepResult :=
  let u := s.unit x.port
  let index := x.index.getD 0
  let fromBasic := u.contract.any fun k => k.index = 0
  if u.speaks ∧ ¬(fromBasic ∧ index = 0) then
    let change : PendingChange := ⟨index, u.table.gen, x.current, x.vop.getD 0⟩
    let s := s.modContract x.port fun k => { k with change := some change }
    (s.sendClaim x.port purpose index x.current (x.vop.getD 0) u.table.gen 1, none)
  else
    let s := s.modContract x.port fun k =>
      { k with current := x.current, power := powerAt k.vop x.current, since := s.now }
    (s.pathTerms x.port false, some .done)

/-- The cut at the start of a LOWER (R139). -/
def State.cutForLower (s : State) (x : PlanStep) : State :=
  (s.modDraw x.port (min x.current)).postCut (some ⟨.change, .port x.port⟩)

/-- An END at its start: the contract ends, or is demoted where a sole feed is found (R15, R52). -/
def State.startEnd (s : State) (x : PlanStep) : State × Option StepResult :=
  (s.loseTerms x.port,
    if s.soleFeed x.port then (if (s.unit x.port).speaks then none else some .failed) else some .done)

/-- A step that has passed its re-validation is handed out (R52); the result is present where the step
has ended at its start. -/
def State.startStep (s : State) (x : PlanStep) : State × Option StepResult :=
  let s := s.modService fun r => { r with results := r.results.set r.next .inFlight, inFlight := true }
  match x.action with
  | .fin => s.startEnd x
  | .lower => (s.cutForLower x).startChange x .lower
  | .restate => s.startChange x .restate
  | .raise => s.startChange x .raise
  | .new => s.startNew x

/-- What the Arbiter does while no step is in flight (R56), for at most `fuel` steps. -/
def State.proceed : Nat → State → State
  | 0, s => s
  | fuel + 1, s =>
    match s.arb.inService with
    | none => s
    | some r =>
      if r.inFlight then s
      else match r.step with
        | none => s.complete r
        | some x =>
          if s.arb.halted then s
          else if s.preempted r then s.abandon r
          else if s.revalidates x then
            match s.startStep x with
            | (s, none) => s
            | (s, some result) => State.proceed fuel (s.closeStep x.port result)
          else State.proceed fuel (s.endStep .skipped)

/-- What the Arbiter does while no step is in flight (R56).  Each round advances the next step index, so a
round for each step and one for the completion are enough. -/
def State.act (s : State) : State :=
  match s.arb.inService with
  | none => s
  | some r => s.proceed (r.plan.steps.length + 1)

/-- The step in flight on a port ends, and the Arbiter acts (R56). -/
def State.stepEnds (s : State) (p : PortId) (result : StepResult) : State :=
  if s.stepOn p then (s.closeStep p result).act else s

/-- Do `f` to the state; where a step was in flight on the port, it has the result first, and the Arbiter
acts last, on what the event has posted (R55, R56, R61). -/
def State.endingStep (s : State) (p : PortId) (result : StepResult) (f : State → State) : State :=
  if s.stepOn p then (f (s.closeStep p result)).act else f s

/-! ### The take -/

/-- May the Arbiter take an entry (R46)? -/
def State.mayTake (s : State) : Bool :=
  s.arb.inService.isNone && !s.arb.halted && s.mode.power == .active

/-- The covered list of a take: the other pending entries, unmasked and of the level taken or below
(R48). -/
def Arbiter.coveredAt (a : Arbiter) (l : Level) : EntrySet :=
  let keep (x : Level) : OriginSet :=
    if a.masked x ∨ l.number < x.number then ⟨false, .all false⟩ else a.pending.level x
  ⟨keep .shed, keep .loss, keep .change, keep .gain⟩

/-- The in-service record of a take (R48, R49). -/
def State.record (s : State) (e : PendingEntry) : InService :=
  let plan := s.plan e.level
  { taken := e, plan := plan, results := plan.steps.map fun _ => .waiting, next := 0
    inFlight := false, reduceOnly := plan.reduceOnly, covered := s.arb.coveredAt e.level }

/-- A take of the entry that R47 chooses (R48). -/
def State.takeEntry (s : State) (e : PendingEntry) : State :=
  let s := s.modArb fun a => { a with pending := a.pending.put e false }
  (s.modArb fun a => { a with inService := some (s.record e) }).act

/-! ### The line fault -/

/-- A line fault counts a restart; the third in a row makes the port legacy (R83, R84). -/
def State.countRestart (s : State) (p : PortId) : State :=
  let s := s.modUnit p fun u => { u with restarts := min countTop (u.restarts + 1) }
  if (s.unit p).restarts = countTop then
    (s.modUnit p fun u => { u with legacy := true }).setFlag (.port p .legacy)
  else s

/-- A line fault of a port (R83); `own` is whether the part sends its break.  The step in flight fails, with
its cap, before the entry to DISCOVER, which clears the cap; the Arbiter acts on what is posted. -/
def State.lineFault (s : State) (p : PortId) (own : Bool) : State :=
  let step := s.stepOn p
  let lost := (s.unit p).contract.isSome && s.isClosed p
  let s := s.giveUp p
  let s := if own then s.sendBreak p else s
  let s := if (s.unit p).contract.isSome then s.endOrDemote p else s
  let s := if step then (s.writeCap p).endStep .failed else s
  let s := if lost then s.post .loss (.port p) else s
  let s := (s.countRestart p).enterDiscover p
  if step then s.act else s

end Sys2Proof.Machine
end

