-- ==== Sys2Proof/Machine/Frames.lean ====
section
/-! DEFINITION. Frames received on a dialogue line (chapters 5 and 6): OFFERS, GRANT, DENY, READY, RATING and
DIALOGUE_FRAME_REJECT; SYNC_BYTE_TAKEN, which begins them or is data in them, and BREAK_RELEASE, which frees the
line for them. -/

namespace Sys2Proof.Machine

/-! ### The line before and at a frame -/

/-- The line at the release of the part's own break (R125): quiet start where it rises, a low run where another party
still pulls.  In OFF the interface is stopped and both stay absent (R116; DEDUCED, assumption log 20). -/
def LineInterface.release (l : LineInterface) (now : Nat) (off low : Bool) : LineInterface :=
  let l := { l with transmitter := if l.held.isSome then .waiting else .idle, lowStart := none }
  if off then l else if low then l.fall now else l.rise now

/-- At 3 ms the part releases its own break (R125): a held frame waits for the line, and a QUERY that waited
for the release is handed over (R95). -/
def State.breakReleases (s : State) (p : PortId) : State :=
  match (s.unit p).line.transmitter with
  | .breaking start =>
    let s := s.waitUs start breakUs
    let s := s.modLine p fun l =>
      l.release s.clock.bit ((s.unit p).state == .off) (s.pins.lineLow.get p)
    match (s.unit p).exchange with
    | some (.query attempt none) => s.sendQuery p attempt
    | _ => s
  | _ => s

/-- BREAK_RELEASE (R125). -/
def execBreakRelease (p : PortId) (s : State) : Host.Outcome State Fault Refusal :=
  finish (s.breakReleases p)

/-- The line as the end of a byte needs it: the part's own break has been released, and no other party holds it low.  The
byte's own bits say when it rose (`LineInterface.byteTaken`). -/
def State.lineFree (s : State) (p : PortId) : State := (s.breakReleases p).setLineLow p false

/-- A sync byte taken while HUNTING begins a frame (R118). -/
def State.frameBegins (s : State) (p : PortId) : State :=
  let s := s.lineFree p
  s.modLine p fun l => { l.byteTaken s.clock.bit syncByte with reception := .inFrame [] }

/-- A frame completes: reception becomes HUNTING, and its last byte has been taken (R117, R118).  Its bytes up to
that one come within the step, the sync byte too where no SYNC_BYTE_TAKEN has come for it; START_OF_FRAME_REPORT, which
comes before them, is the sender's to command (assumption log 2). -/
def State.frameTaken (s : State) (p : PortId) (frame : List Byte) : State :=
  let s := s.lineFree p
  s.modLine p fun l => { l.byteTaken s.clock.bit (frame.getLastD 0#8) with reception := .hunting }

/-- The reception of a complete frame: what a port that acts on it does with the message it spells, and
nothing beyond the reception otherwise (R94, R116 to R120).  Bytes that are no complete frame complete
nothing, and a port in OFF takes none. -/
def State.receive (s : State) (p : PortId) (frame : List Byte) (act : State → Message → State) : State :=
  if (s.unit p).state = .off ∨ frameComplete frame = false then s
  else
    let s := s.frameTaken p frame
    match readFrame frame with
    | some m => if (s.unit p).listens then act s m else s
    | none => s

/-! ### OFFERS -/

/-- The port a stale claim leaves behind (R98): STANDBY without a contract, FEEDING with one. -/
def State.staleClaim (s : State) (p : PortId) : State :=
  (s.giveUp p).modUnit p fun u => { u with
    state := if u.contract.isSome then .feeding else .standby
    contract := u.contract.map fun k => { k with change := none } }

/-- An OFFERS acts (R97, R98): it crosses an outstanding claim, whose step fails first, and is stored; a
return-to-Basic claim is made anew in the new generation (R14). -/
def State.offersArrive (s : State) (p : PortId) (gen : Gen) (kind : SupplyKind)
    (menu : List SentOffer) : State :=
  match (s.unit p).exchange with
  | some (.claim .ret _ _ _ _ _ _) => ((s.giveUp p).storeOffers p gen kind menu).returnToBasic p
  | some (.claim _ _ _ _ _ _ _) =>
    (s.staleClaim p).endingStep p .failed fun s => s.storeOffers p gen kind menu
  | _ => s.storeOffers p gen kind menu

/-- OFFERS (R3, R97, R98). -/
def execOffers (p : PortId) (frame : List Byte) (s : State) : Host.Outcome State Fault Refusal :=
  finish (s.receive p frame fun s m =>
    match m with
    | .offers gen kind menu => s.offersArrive p gen kind menu
    | _ => s)

/-! ### GRANT -/

/-- The contract of a NEW's claim (R10). -/
def PortUnit.newContract (u : PortUnit) (index current vop : Nat) (gen : Option Gen) (now : Time) : Contract :=
  { index := index, kind := u.table.kindAt index, gen := gen, vop := vop, current := current
    power := powerAt vop current, since := now, change := none, window := none }

/-- The contract after the GRANT of a change (R11): the pending change's terms; a window in the table's
generation goes. -/
def PortUnit.changedContract (u : PortUnit) (k : Contract) (c : PendingChange) (now : Time) : Contract :=
  { index := c.index, kind := u.table.kindAt c.index, gen := c.gen, vop := c.vop, current := c.current
    power := powerAt c.vop c.current, since := now, change := none
    window := if c.gen = u.table.gen then none else k.window }

/-- The wait that a change's GRANT opens, by the terms before and after it (R101): a READY, a SETTLE or
none. -/
def waitAfter (old new : Contract) (now : Time) : Option Exchange :=
  if old.vop < new.vop ∨ old.current < new.current then some (.ready new.gen now)
  else if new.vop < old.vop then some (.settle new.vop now)
  else none

/-- The GRANT of a NEW's claim (R10, R101). -/
def State.grantNew (s : State) (p : PortId) (index current vop : Nat) (gen : Option Gen) : State :=
  let s := s.putContract p ((s.unit p).newContract index current vop gen s.now)
  (s.writeOfferCurrent p).modUnit p fun u =>
    { u with state := .switching, exchange := some (.ready gen s.now) }

/-- The GRANT of a change's claim (R11, R101, R136). -/
def State.grantChange (s : State) (p : PortId) (k : Contract) (c : PendingChange) : State :=
  let new := (s.unit p).changedContract k c s.now
  let s := (s.putContract p new).pathTerms p false
  match waitAfter k new s.now with
  | some wait => s.modUnit p fun u => { u with state := .switching, exchange := some wait }
  | none => (s.setPortState p .feeding).stepEnds p .done

/-- The GRANT of a return-to-Basic claim (R14, R19, R138): "since" is set anew, the ceiling goes, and a step
that the demotion failed ends. -/
def State.grantReturn (s : State) (p : PortId) : State :=
  let gen := (s.unit p).table.gen
  let s := s.modContract p fun k =>
    { k with since := s.now, window := if k.gen = gen then none else k.window }
  ((s.dropCeiling p).setPortState p .feeding).stepEnds p .failed

/-- A matching GRANT ends the claim and sets the restart count to 0 (R84, R101). -/
def State.claimGranted (s : State) (p : PortId) : State :=
  (s.giveUp p).modUnit p fun u => { u with restarts := 0 }

/-- A GRANT acts (R101, R104). -/
def State.grantArrives (s : State) (p : PortId) (gen : Gen) (index current : Nat) : State :=
  match (s.unit p).exchange with
  | some (.claim purpose i c vop g _ _) =>
    if g = some gen ∧ i = index ∧ c = current then
      let s := s.claimGranted p
      match purpose, (s.unit p).contract with
      | .new, _ => s.grantNew p i c vop g
      | .ret, _ => s.grantReturn p
      | _, some k => s.grantChange p k (k.change.getD ⟨i, g, c, vop⟩)
      | _, none => s
    else s
  | _ => s

/-- GRANT (R101). -/
def execGrant (p : PortId) (frame : List Byte) (s : State) : Host.Outcome State Fault Refusal :=
  finish (s.receive p frame fun s m =>
    match m with
    | .grant gen index current => s.grantArrives p gen index current
    | _ => s)

/-! ### DENY -/

/-- A resync starts, where none is running (R103). -/
def State.startResync (s : State) (p : PortId) : State :=
  s.modUnit p fun u => { u with resyncStart := some (u.resyncStart.getD s.now) }

/-- A change has failed with the loss of its terms (R12): the contract ends, and the step with it; or it is
demoted, and the step stays in flight until the return-to-Basic claim has ended (R14, R54). -/
def State.failChange (s : State) (p : PortId) : State :=
  let returns := s.soleFeed p && (s.unit p).speaks
  let s := (s.loseTerms p).post .loss (.port p)
  if returns then s else s.stepEnds p .failed

/-- A DENY ends a claim of some purpose (R102), and withdraws a repeated CLAIM of it that is still held (DEDUCED from R124,
assumption log 12). -/
def State.denied (s : State) (p : PortId) : Purpose → State
  | .new => ((s.giveUp p).setPortState p .standby).stepEnds p .failed
  | .raise =>
    (((s.giveUp p).modContract p fun k => { k with change := none }).setPortState p .feeding).stepEnds p
      .failed
  | .lower | .restate => s.failChange p
  | .ret => s.lineFault p true

/-- A DENY acts (R102, R104). -/
def State.denyArrives (s : State) (p : PortId) (gen : Gen) (reason : DenyReason) : State :=
  match (s.unit p).exchange with
  | some (.claim purpose _ _ _ g _ _) =>
    if g = some gen then
      (if reason = .stale ∧ purpose ≠ .ret then s.startResync p else s).denied p purpose
    else s
  | _ => s

/-- DENY (R102). -/
def execDeny (p : PortId) (frame : List Byte) (s : State) : Host.Outcome State Fault Refusal :=
  finish (s.receive p frame fun s m =>
    match m with
    | .deny gen reason => s.denyArrives p gen reason
    | _ => s)

/-! ### READY -/

/-- The voltage test at the READY of a NEW (R131): precharge, or the NEW fails. -/
def State.readyNew (s : State) (p : PortId) : State :=
  match s.acceptNew p with
  | some s => s
  | none => (s.failNew p).stepEnds p .failed

/-- The voltage test at the READY of a change (R133). -/
def State.readyChange (s : State) (p : PortId) : State :=
  if s.voltageOk p then (s.setPortState p .feeding).stepEnds p .done else s.failChange p

/-- A READY acts (R104, R106). -/
def State.readyArrives (s : State) (p : PortId) (gen : Gen) : State :=
  match (s.unit p).exchange with
  | some (.ready g _) =>
    if g = some gen then
      let s := s.giveUp p
      if s.isClosed p then s.readyChange p else s.readyNew p
    else s
  | _ => s

/-- READY (R106). -/
def execReady (p : PortId) (frame : List Byte) (s : State) : Host.Outcome State Fault Refusal :=
  finish (s.receive p frame fun s m =>
    match m with
    | .ready gen => s.readyArrives p gen
    | _ => s)

/-! ### RATING -/

/-- A kept Basic contract lowered to a cable's new max current (R8, R139), rounded down to 10 mA. -/
def State.lowerKept (s : State) (p : PortId) (cable : Nat) : State :=
  match (s.unit p).contract with
  | some k =>
    if cable < k.current then
      let current := cable / 10 * 10
      let s := s.modContract p fun k => { k with current := current, power := powerAt k.vop current }
      let s := s.pathTerms p true
      (s.modDraw p (min (min current (s.contractIder p)))).postCut (some ⟨.change, .port p⟩)
    else s
  | none => s

/-- A RATING acts (R7, R8, R96): the query ends, the cable record is written and the table recomputed. -/
def State.ratingArrives (s : State) (p : PortId) (current voltage : Nat) : State :=
  match (s.unit p).exchange with
  | some (.query _ _) =>
    let s := (s.giveUp p).modUnit p fun u => { u with
      cable := some ⟨min portCurrent current, voltage⟩
      table := { u.table with entries := u.table.entries.map (rejudge voltage) } }
    (s.lowerKept p (min portCurrent current)).endQuery p
  | _ => s

/-- RATING (R96). -/
def execRating (p : PortId) (frame : List Byte) (s : State) : Host.Outcome State Fault Refusal :=
  finish (s.receive p frame fun s m =>
    match m with
    | .rating current voltage => s.ratingArrives p current voltage
    | _ => s)

/-! ### DIALOGUE_FRAME_REJECT -/

/-- DIALOGUE_FRAME_REJECT: a complete frame that fails a test is discarded silently (R94, R119, R120). -/
def execDialogueFrameReject (p : PortId) (frame : List Byte) (s : State) :
    Host.Outcome State Fault Refusal :=
  finish (s.receive p frame fun s _ => s)

/-! ### SYNC_BYTE_TAKEN -/

/-- What a port does with a delivered message (R93). -/
def State.acts (s : State) (p : PortId) : Message → State
  | .offers gen kind menu => s.offersArrive p gen kind menu
  | .grant gen index current => s.grantArrives p gen index current
  | .deny gen reason => s.denyArrives p gen reason
  | .ready gen => s.readyArrives p gen
  | .rating current voltage => s.ratingArrives p current voltage

/-- A byte taken IN_FRAME after the bytes `taken` (R118): it joins them, and the frame it completes is received. -/
def State.byteJoins (s : State) (p : PortId) (taken : List Byte) (b : Byte) : State :=
  let frame := taken ++ [b]
  if frameComplete frame then s.receive p frame fun s m => s.acts p m
  else
    let s := s.lineFree p
    s.modLine p fun l => { l.byteTaken s.clock.bit b with reception := .inFrame frame }

/-- A sync byte is taken: HUNTING it begins a frame, IN_FRAME it is data (R118).  Any other byte taken while HUNTING is ignored and
sets last byte end (R117, R118); the table has no row for it, so it has no command and no effect here (DESIGN CHOICE, assumption
log 13). -/
def State.syncTaken (s : State) (p : PortId) : State :=
  if (s.unit p).state = .off then s
  else match (s.unit p).line.reception with
    | .hunting => s.frameBegins p
    | .inFrame taken => s.byteJoins p taken syncByte

/-- SYNC_BYTE_TAKEN (R118). -/
def execSyncByteTaken (p : PortId) (s : State) : Host.Outcome State Fault Refusal :=
  finish (s.syncTaken p)

end Sys2Proof.Machine
end

