-- ==== Sys2Proof/Machine/Payloads.lean ====
section
/-! DEFINITION. The payloads of the reading requests, byte by byte (R42, R68, R160, R186, R187, R196). -/

namespace Sys2Proof.Machine

/-! ### Codes (R196) -/

/-- A port state's code. -/
def PortState.code : PortState → Nat
  | .off => 0
  | .empty => 1
  | .debounce => 2
  | .discover => 3
  | .standby => 4
  | .claiming => 5
  | .switching => 6
  | .feeding => 7
  | .faulted => 8

/-- A path state's code. -/
def PathState.code : PathState → Nat
  | .openPath => 0
  | .precharge => 1
  | .closed => 2

/-- An offer kind's code. -/
def OfferKind.code : OfferKind → Nat
  | .basic => 0
  | .fixed => 1
  | .range => 2

/-- An eligibility's code. -/
def Eligibility.code : Eligibility → Nat
  | .eligible => 0
  | .clamped => 1
  | .ineligible => 2

/-- An origin's code. -/
def Origin.code : Origin → Nat
  | .whole => 0
  | .port p => p.number

/-- An entry's code: level in bits 1..0, origin in bits 6..4. -/
def PendingEntry.code (e : PendingEntry) : Nat := e.level.number + e.origin.code * 16

/-- An action's code. -/
def Action.code : Action → Nat
  | .fin => 0
  | .lower => 1
  | .restate => 2
  | .new => 3
  | .raise => 4

/-- A step result's code. -/
def StepResult.code : StepResult → Nat
  | .waiting => 0
  | .inFlight => 1
  | .done => 2
  | .skipped => 3
  | .failed => 4
  | .aborted => 5

/-- A rebalance result's code. -/
def RebalanceResult.code : RebalanceResult → Nat
  | .done => 0
  | .noChange => 1
  | .partly => 2
  | .abandoned => 3

/-- A part's code. -/
def Part.code : Part → Nat
  | .takesPart => 0
  | .held => 1
  | .none => 2

/-- A disposition's code. -/
def Disposition.code : Disposition → Nat
  | .step a => a.code
  | .noStep => 5
  | .kept => 6
  | .withheld => 7

/-- A class's code. -/
def classCode : LimitClass → Nat
  | .mw45000 => 0
  | .mw65000 => 1
  | .mw100000 => 2
  | .mw140000 => 3

/-- A reset cause's code. -/
def ResetCause.code : ResetCause → Nat
  | .hard .powerOn => 0
  | .hard .supplyLow => 1
  | .hard .pin => 2
  | .soft => 3

/-- A power mode's code; R196 gives that of ACTIVE, which is the only one a reply can carry (R186). -/
def PowerMode.code : PowerMode → Nat
  | .starting => 0
  | .active => 1
  | .dormant => 2

/-- A port number, or 0 for none. -/
def portCode (p : Option PortId) : Nat := (p.map PortId.number).getD 0

/-- A channel's code: none 0, A 1, B 2. -/
def channelCode : Option ChannelId → Nat
  | none => 0
  | some .a => 1
  | some .b => 2

/-- A generation's number, an absent one as 0. -/
def genCode (g : Option Gen) : Nat := (g.map BitVec.toNat).getD 0

/-- The ms a recorded time has run, 0 where it is absent. -/
def State.ran (s : State) (t : Option Time) : Nat := (t.map s.since).getD 0

/-! ### GET_STATUS -/

/-- The 32 bytes of GET_STATUS (R186, R196). -/
def State.statusPayload (s : State) : List Byte :=
  let m := s.mode
  [byte m.power.code, byte (match m.authority with | .autonomous => 0 | .directed => 1),
   byte m.cause.code,
   byte (bit m.trimDefault 0 + bit s.arb.halted 1 + bit s.arb.gainMasked 2 + bit s.arb.changeMasked 3
     + bit s.arb.inService.isSome 4 + bit (s.path.batteryPresent == some true) 5
     + bit (s.prot.railAsserted == some true) 6 + bit s.path.statusOutput 7),
   byte m.straps.portCount, byte (classCode m.straps.limitClass),
   byte (match m.straps.linkRate with | .baud115200 => 0 | .baud1000000 => 1),
   byte s.arb.pending.count]
  ++ be32 m.demand ++ be32 m.limit ++ [byte m.silenceTimeout, byte s.host.queue.length]
  ++ be32 (m.silenceElapsed.getD 0xFFFFFFFF)
  ++ [byte (portCode s.path.a.bound)] ++ be16 s.path.a.draw
  ++ [byte (portCode s.path.b.bound)] ++ be16 s.path.b.draw
  ++ be32 s.now.toNat

/-! ### GET_PORT -/

/-- An exchange's code with its attempt number, and the ms its wait has run (R92, R196). -/
def State.exchangeCode (s : State) : Option Exchange → Nat × Nat
  | none => (0, 0)
  | some (.query attempt start) => (0 + attempt * 16, s.ran start)
  | some (.claim _ _ _ _ _ attempt start) => (1 + attempt * 16, s.since start)
  | some (.ready _ start) => (2, s.since start)
  | some (.settle _ start) => (3, s.since start)

/-- The contract's bytes 23..46 of GET_PORT. -/
def contractBytes (k : Contract) : List Byte :=
  let c := k.change.getD ⟨0, none, 0, 0⟩
  [byte (k.index + k.kind.code * 16), byte (genCode k.gen)] ++ be16 k.vop ++ be16 k.current
  ++ be32 k.power ++ be32 k.since.toNat ++ [byte c.index, byte (genCode c.gen)] ++ be16 c.current
  ++ be16 c.vop ++ be32 ((k.window.map fun w => w.start.toNat).getD 0)

/-- The sixteen presence bits of GET_PORT. -/
def State.portPresence (s : State) (p : PortId) : Nat :=
  let u := s.unit p
  let x := s.portPath p
  bit u.discoveryStart.isSome 0 + bit u.cleanRunStart.isSome 1 + bit u.coolDownStart.isSome 2
  + bit u.table.gen.isSome 3 + bit u.cable.isSome 4 + bit u.contract.isSome 5
  + bit (u.contract.any fun k => k.change.isSome) 6 + bit (u.contract.any fun k => k.window.isSome) 7
  + bit u.denialCap.isSome 8 + bit (u.denialCap.any fun c => c.gen.isSome) 9
  + bit u.droopCap.isSome 10 + bit u.exchange.isSome 11 + bit x.ceiling.isSome 12
  + bit x.offerCurrent.isSome 13 + bit (s.meter p).capture.isSome 14 + bit (s.isBound p) 15

/-- The eight mark bits of GET_PORT. -/
def State.portMarks (s : State) (p : PortId) : Nat :=
  let u := s.unit p
  bit u.enabled 0 + bit (u.mode == .basicOnly) 1 + bit u.legacy 2 + bit u.resyncStart.isSome 3
  + bit ((s.meter p).capture.any Capture.locked) 4 + bit (u.table.supply == some .dock) 5
  + bit (u.contract.any fun k => k.window.any fun w => w.verdict == .invalid) 6
  + bit (u.contract.any fun k => k.gen.isSome) 7

/-- The 80 bytes of GET_PORT (R187, R196). -/
def State.portPayload (s : State) (p : PortId) : List Byte :=
  let u := s.unit p
  let x := s.portPath p
  let m := s.meter p
  let cable := u.cable.getD ⟨0, 0⟩
  let cap := u.denialCap.getD ⟨0, none⟩
  let exchange := s.exchangeCode u.exchange
  [byte p.number, byte u.state.code] ++ be16 (s.portPresence p)
  ++ [byte (s.portMarks p), byte u.rank, byte u.derate, byte (u.restarts + u.trips * 16)]
  ++ be32 (s.ran u.discoveryStart) ++ be32 (s.ran u.cleanRunStart) ++ be32 (s.ran u.coolDownStart)
  ++ [byte (genCode u.table.gen + u.table.entries.length * 16),
      byte (cable.current / 50), byte (cable.voltage / 500)]
  ++ contractBytes (u.contract.getD ⟨0, .basic, none, 0, 0, 0, 0, none, none⟩)
  ++ be32 cap.power ++ [byte (genCode cap.gen)] ++ be32 (u.droopCap.getD 0)
  ++ [byte exchange.1] ++ be16 exchange.2
  ++ [byte x.state.code, byte (channelCode (s.channelOf p))] ++ be16 (s.ran x.prechargeStart)
  ++ be16 (x.offerCurrent.getD 0) ++ be16 (x.ceiling.getD 0) ++ be16 (s.contractIder p)
  ++ be16 m.excess ++ [byte m.droopRun] ++ be32 m.whole ++ be32 m.fine

/-! ### GET_OFFERS -/

/-- An entry as sent, in the 32-bit form of R194; entry 0 in the FIXED form of 5000 mV and 900 mA. -/
def sentWord : Sent → Nat
  | .basic => 2 ^ 30 + basicVoltage / 50 * 2 ^ 20 + basicCurrent / 10 * 2 ^ 10
  | .offer (.fixed v i) => 2 ^ 30 + v / 50 * 2 ^ 20 + i / 10 * 2 ^ 10
  | .offer (.range lo hi p) => 2 ^ 31 + hi / 50 * 2 ^ 20 + lo / 50 * 2 ^ 10 + p / 250

/-- The 13 bytes of an entry; Vop, Ider and U are 0 for an INELIGIBLE one (R42, R196). -/
def entryBytes (cable derate : Nat) (e : Entry) (i : Nat) : List Byte :=
  let f := (e.figures i cable derate).getD ⟨i, 0, 0, 0⟩
  byte (i + e.kind.code * 16 + e.eligibility.code * 64) :: be32 (sentWord e.sent) ++ be16 f.vop
  ++ be16 f.ider ++ be32 f.usable

/-- The bytes of GET_OFFERS (R42, R196): best offer and Up in STANDBY and FEEDING alone. -/
def State.offersPayload (s : State) (p : PortId) : List Byte :=
  let u := s.unit p
  let best := if u.part = .takesPart then u.best else none
  [byte p.number, byte u.table.entries.length,
   byte (bit u.table.gen.isSome 0 + bit best.isSome 1 + bit (u.table.supply == some .dock) 2),
   byte (genCode u.table.gen), byte ((best.map OfferFigures.index).getD 0)]
  ++ be32 ((best.map fun b => u.figureOf b.usable).getD 0)
  ++ u.table.entries.zipIdx.flatMap fun x => entryBytes u.cableCurrent u.derate x.1 x.2

/-! ### GET_PLAN -/

/-- The 12 bytes of a step slot, 0 where there is no step. -/
def stepBytes : Option (PlanStep × StepResult) → List Byte
  | none => List.replicate 12 0#8
  | some (x, r) =>
    [byte x.port.number, byte (x.action.code + r.code * 16), byte (x.index.getD 0),
     byte ((x.gen.map BitVec.toNat).getD 0xFF)] ++ be16 (x.vop.getD 0) ++ be16 x.current ++ be32 x.power

/-- The 16 bytes of a target row. -/
def rowBytes (r : TargetRow) : List Byte :=
  [byte (r.part.code + r.disposition.code * 16), byte (r.best.getD 0)] ++ be32 (r.figure.getD 0)
  ++ be32 r.allocation ++ be16 r.current ++ be32 r.power

/-- The pending set as R68 lists it: take order, masked entries after unmasked ones. -/
def State.listedPending (s : State) : List PendingEntry :=
  let all := s.takeOrder.filter s.arb.pending.has
  all.filter (fun e => !s.arb.masked e.level) ++ all.filter fun e => s.arb.masked e.level

/-- The bytes of GET_PLAN (R68, R196).  DESIGN CHOICE (assumption log 19): R196 gives the covered list no order and R68
speaks of the pending set; the covered list stands in take order (R47), masked levels in their places. -/
def State.planPayload (s : State) : List Byte :=
  let r := s.arb.inService
  let last := s.arb.lastOutcome
  let steps := (r.map fun r => r.plan.steps.zip r.results).getD []
  let covered := (r.map fun r => s.takeOrder.filter r.covered.has).getD []
  [byte (bit r.isSome 0 + bit (r.any InService.inFlight) 1 + bit (r.any InService.reduceOnly) 2
     + bit (r.any fun r => r.plan.deferral) 3 + bit s.arb.halted 4 + bit last.isSome 5),
   byte ((r.map fun r => r.taken.code).getD 0),
   byte (steps.length + (r.map InService.next).getD 0 * 16),
   byte covered.length, byte s.listedPending.length,
   byte ((last.map fun o => o.taken.code).getD 0),
   byte ((last.map fun o => o.result.code + o.stepsDone * 16).getD 0)]
  ++ be32 ((last.map fun o => o.time.toNat).getD 0)
  ++ stepBytes steps[0]? ++ stepBytes steps[1]? ++ stepBytes steps[2]? ++ stepBytes steps[3]?
  ++ (match r with
      | some r => PortId.all.flatMap fun p => rowBytes (r.plan.rows.get p)
      | none => List.replicate 64 0#8)
  ++ covered.map (fun e => byte e.code)
  ++ s.listedPending.map fun e => byte (e.code + bit (s.arb.masked e.level) 7)

/-! ### GET_CAPTURE, SNAPSHOT, GET_EVENTS -/

/-- The 12 bytes of GET_CAPTURE (R156, R196). -/
def State.capturePayload (s : State) (p : PortId) : List Byte :=
  let c := (s.meter p).capture
  [byte p.number,
   byte (bit c.isSome 0 + bit (c.any Capture.locked) 1 + bit (c.any fun c => c.cause == .dip) 2)]
  ++ be32 ((c.map fun c => c.time.toNat).getD 0) ++ be16 ((c.map Capture.voltage).getD 0)
  ++ be16 ((c.map Capture.current).getD 0) ++ be16 ((c.map Capture.vop).getD 0)

/-- The snapshot of the energy counters at this moment (R160). -/
def State.energyNow (s : State) : Snapshot :=
  ⟨s.now, s.prot.port.map fun m => ⟨m.whole, m.fine⟩⟩

/-- The 36 bytes of SNAPSHOT (R160, R196). -/
def Snapshot.payload (x : Snapshot) : List Byte :=
  be32 x.time.toNat
  ++ PortId.all.flatMap fun p => be32 (x.energy.get p).whole ++ be32 (x.energy.get p).fine

/-- The 8 bytes of GET_EVENTS (R189, R196). -/
def HostLink.eventsPayload (h : HostLink) : List Byte := be32 h.flags.toVector ++ be32 h.mask.toVector

end Sys2Proof.Machine
end

