-- ==== Sys2Proof/Machine/Service.lean ====
section
/-! DEFINITION. The server of the Host Link Unit (R184): when a request is served, what a service takes from the
queue, and the reply it leaves; and the silence timer's restart (R173). -/

namespace Sys2Proof.Machine

/-- What an owning block answers to a request: a status and a payload (R184). -/
structure Answer where
  state : State
  status : Status
  payload : List Byte

/-- A status with no payload (R185). -/
def State.answer (s : State) (status : Status) : Answer := ⟨s, status, []⟩

/-- OK with what was read (R185). -/
def State.answerWith (s : State) (payload : List Byte) : Answer := ⟨s, .ok, payload⟩

/-- Silence elapsed becomes 0, where it is present: running, or held through DORMANT (R173). -/
def State.restartSilence (s : State) : State :=
  s.modMode fun m => { m with silenceElapsed := m.silenceElapsed.map fun _ => 0 }

/-- May the server make a service: ACTIVE, with no reply in progress (R184)? -/
def State.serverFree (s : State) : Bool := s.mode.power == .active && s.host.reply.isNone

/-- The state from which `entry` is served, its place in the queue given up; nothing where it is not the
server's turn for it (R184).  With the queue empty and no frame being received, the request's own
frame comes first: its last byte ends now, it is placed, restarting the silence timer where `checked`,
and it is served at once (assumption log 2). -/
def State.takeUp (s : State) (entry : QueueEntry) (checked : Bool) : Option State :=
  if s.serverFree then
    match s.host.queue with
    | e :: rest => if e = entry then some (s.modHost fun h => { h with queue := rest }) else none
    | [] =>
      if checked ∧ s.host.reception = .hunting then
        some (s.restartSilence.modHost fun h => { h with lastByteEnd := some s.now })
      else none
  else none

/-- The reply formed at a service becomes the reply in progress (R184, R185). -/
def Answer.reply (a : Answer) (kind : Option Byte) : State :=
  a.state.modHost fun h => { h with reply := some ⟨kind, a.status, a.payload⟩ }

/-- The service of a GOOD request: its owning block's work, and the reply (R184).  The state is left as it
is where the request is not served now. -/
def State.serve (s : State) (r : Request) (payload : List Byte) (work : State → Answer) : State :=
  match s.takeUp (goodEntry r payload) true with
  | some s => (work s).reply (some r.code)
  | none => s

/-- The work of a request that names a port: BAD_PORT where there is none (R185). -/
def State.onPort (s : State) (b : Byte) (work : State → PortId → Answer) : Answer :=
  match s.namedPort b with
  | some p => work s p
  | none => s.answer .badPort

/-- The work of a request that needs DIRECTED authority (R169). -/
def State.inDirected (s : State) (work : State → Answer) : Answer :=
  match s.mode.authority with
  | .directed => work s
  | .autonomous => s.answer .notDirected

end Sys2Proof.Machine
end

