-- ==== Sys2Proof/Machine/Resets.lean ====
section
/-! DEFINITION. The resets and STARTING: POWER_ON, SUPPLY_LOW, PIN_RESET, RESET_CAUSE_END, STARTING_END
(chapter 9), and the SOFT reset, which REPLY_SENT brings about (R174). -/

namespace Sys2Proof.Machine

/-! ### The hard resets -/

/-- The causes that hold the part with one more begun (R164). -/
def ResetHold.begin (h : ResetHold) : HardReset → ResetHold
  | .pin => { h with pin := true }
  | k => { h with supply := some k }

/-- Is the cause one that holds the part? -/
def ResetHold.has (h : ResetHold) : HardReset → Bool
  | .pin => h.pin
  | k => h.supply == some k

/-- The causes that hold the part with one ended. -/
def ResetHold.drop (h : ResetHold) : HardReset → ResetHold
  | .pin => { h with pin := false }
  | _ => { h with supply := none }

/-- The energy counters that a reset leaves: kept by PIN, 0 after the others (R146). -/
def Meter.energyAfter (m : Meter) : HardReset → EnergyPair
  | .pin => ⟨m.whole, m.fine⟩
  | _ => ⟨0, 0⟩

/-- Is the port one the straps enable (R69, R168)? -/
def StrapRecord.enables (r : StrapRecord) (p : PortId) : Bool := decide (p.number ≤ r.portCount)

/-- The Port Units after a hard reset. -/
def unitsReset (r : StrapRecord) : PerPort PortUnit :=
  ⟨.reset (r.enables .p1), .reset (r.enables .p2), .reset (r.enables .p3), .reset (r.enables .p4)⟩

/-- A hard reset begins: the part is held, with every block at its reset values (R164).  What the lines read,
the record of the last cause, and trim and straps until STARTING reads them again are left. -/
def State.holdIn (s : State) (k : HardReset) : State :=
  { s with
    clock := ⟨0, 0⟩
    mode := { s.mode with
      hold := s.mode.hold.begin k, authority := .autonomous
      demand := s.classPower, limit := s.classPower
      silenceTimeout := 0, silenceElapsed := none, power := .starting, wakeSet := none }
    arb := .reset
    units := unitsReset s.mode.straps
    path := .reset
    prot := ⟨s.prot.port.map fun m => .reset (m.energyAfter k), none, none⟩
    host := .reset }

/-- The cause `k` ends (R164).  Where no other holds the part, STARTING begins with `b`: the reset cause is
written, trim is loaded and the straps are sampled (R165 to R167). -/
def State.releaseFrom (s : State) (k : HardReset) (b : Board) : State :=
  if s.mode.hold.has k then
    let hold := s.mode.hold.drop k
    if hold.supply.isSome || hold.pin then s.modMode fun m => { m with hold := hold }
    else
      { s with
        clock := ⟨0, 0⟩
        mode := .starting k b
        units := unitsReset (sampledStraps b) }
  else s

/-- A hard reset, whose cause ends within the step where `release` gives the board. -/
def State.hardReset (s : State) (k : HardReset) (release : Option Board) : State :=
  match release with
  | some b => (s.holdIn k).releaseFrom k b
  | none => s.holdIn k

/-- POWER_ON (R164). -/
def execPowerOn (release : Option Board) (s : State) : Host.Outcome State Fault Refusal :=
  finish (s.hardReset .powerOn release)

/-- SUPPLY_LOW: the effects of POWER_ON, under its own cause (R164). -/
def execSupplyLow (release : Option Board) (s : State) : Host.Outcome State Fault Refusal :=
  finish (s.hardReset .supplyLow release)

/-- PIN_RESET: as POWER_ON, with the energy counters kept (R146, R164). -/
def execPinReset (release : Option Board) (s : State) : Host.Outcome State Fault Refusal :=
  finish (s.hardReset .pin release)

/-- RESET_CAUSE_END (R164). -/
def execResetCauseEnd (cause : HardReset) (board : Board) (s : State) :
    Host.Outcome State Fault Refusal :=
  finish (s.releaseFrom cause board)

/-! ### The end of STARTING -/

/-- A dip at an assertion of the rail-low comparator (R157): a CLOSED port captures where its capture is
absent or unlocked, and DIP is set. -/
def State.dipCapture (s : State) (p : PortId) : State :=
  if s.isClosed p ∧ ¬((s.meter p).capture.any Capture.locked) then
    s.modMeter p fun m => { m with
      capture := some
        { time := s.now, voltage := s.voltage p, current := s.current p
          vop := ((s.unit p).contract.map Contract.vop).getD 0, cause := .dip, locked := true } }
  else s

/-- An assertion of the rail-low comparator (R157). -/
def State.railAsserts (s : State) : State :=
  let s := s.modProt fun x => { x with railAsserted := some true }
  (PortId.all.foldl State.dipCapture s).setFlag (.whole .dip)

/-- STARTING ends (R168): ACTIVE and AUTONOMOUS, the ports up to the count enabled, the battery and rail
levels taken, and the host link begins to receive. -/
def State.endStarting (s : State) : State :=
  let s := s.modMode fun m => { m with
    power := .active, authority := .autonomous, demand := s.classPower, limit := s.classPower }
  let s := (PortId.all.filter s.mode.straps.enables).foldl State.outOfOff s
  let s := s.modPath fun x => { x with batteryPresent := some s.pins.batteryPresent }
  let s := if s.pins.railLow then s.railAsserts
    else s.modProt fun x => { x with railAsserted := some false }
  s.modHost fun h => { h with reception := .hunting, queue := [] }

/-- STARTING_END: once 10 ms have passed since STARTING began (R165); nothing outside STARTING, or while a
reset holds the part. -/
def execStartingEnd (s : State) : Host.Outcome State Fault Refusal :=
  finish (if s.mode.power = .starting ∧ s.held = false then (s.waitMs 0 startingMs).endStarting else s)

/-! ### The SOFT reset -/

/-- The SOFT reset of the Arbiter, before the ports act (R66). -/
def State.softArbiter (s : State) : State :=
  let s := match s.arb.inService with
    | some r => s.writeOutcome r .abandoned
    | none => s
  s.modArb fun a => { a with inService := none, gainMasked := false, changeMasked := false, halted := false }

/-- The SOFT reset of a port (R91, R114, R127). -/
def State.softPort (s : State) (p : PortId) : State :=
  let u := s.unit p
  match u.state with
  | .debounce =>
    s.modUnit p fun u => { u with presence := if u.isPresent then some ⟨true, s.now⟩ else u.presence }
  | .discover => if u.speaks then ((s.giveUp p).sendBreak p).enterDiscover p else s.enterDiscover p
  | .claiming | .switching =>
    let s := (s.giveUp p).sendBreak p
    let s := if u.contract.isSome then s.endOrDemote p else s
    s.enterDiscover p
  | .off | .empty | .standby | .feeding | .faulted => s

/-- Mode Control's part of the SOFT reset (R174). -/
def State.softMode (s : State) : State :=
  s.modMode fun m => { m with
    cause := .soft, authority := .autonomous
    demand := s.classPower, limit := s.classPower
    silenceTimeout := 0, silenceElapsed := none, power := .active, wakeSet := none }

/-- The SOFT reset of the Host Link Unit (R188, R192). -/
def State.softHost (s : State) : State :=
  s.modHost fun h => { h with queue := [], reply := none, flags := .all false, mask := .all false }

/-- The SOFT reset, at one event (R174): what its own effects post and set falls to its clearing of the
pending set and the flags (R66, R188), and CHANGE GLOBAL is posted after it.  DESIGN CHOICE (assumption log 10): R143
leaves open which of two CLOSED paths ends first; the ports act in order, P1 to P4, so the lower-numbered contract
ends and the last is demoted. -/
def State.softReset (s : State) : State :=
  let s := PortId.all.foldl State.softPort s.softMode.softArbiter
  let s := (s.modArb fun a => { a with pending := .empty }).softHost
  s.post .change .whole

end Sys2Proof.Machine
end

