-- ==== Sys2Proof/Machine/HostEvents.lean ====
section
/-! DEFINITION. The host link's own events (R180 to R184): HOST_START_BYTE, REQUEST_FRAME_COMPLETE,
HOST_FRAME_GAP_TIMEOUT, HOST_FRAMING_ERROR, SERVE_ERROR_ENTRY, REPLY_SENT. -/

namespace Sys2Proof.Machine

/-- Does the unit take bytes from its receive line: not through STARTING nor a held reset (R179)? -/
def State.linkUp (s : State) : Bool := s.mode.power != .starting

/-- An entry is offered to the queue (R182): placed, restarting the silence timer where its check passed
(R173, R181), or lost to OVERRUN. -/
def State.offerEntry (s : State) (e : QueueEntry) (checked : Bool) : State :=
  if s.host.queue.length < queueTop then
    let s := if checked then s.restartSilence else s
    s.modHost fun h => { h with queue := h.queue ++ [e] }
  else s.setFlag (.whole .overrun)

/-- The unit is IN_FRAME: a start byte taken while HUNTING begins a frame and raises the LINK wake condition (R180,
R193). -/
def State.requestBegins (s : State) : State :=
  if s.host.reception = .hunting then
    (s.modHost fun h => { h with reception := .inFrame [], lastByteEnd := some s.now }).wake .link
  else s

/-- The bytes after the start byte are `bytes`, the last taken now: where they are a complete frame it becomes an entry,
else they are the partial frame (R180, R181). -/
def State.bytesTaken (s : State) (bytes : List Byte) : State :=
  let s := s.modHost fun h => { h with lastByteEnd := some s.now }
  match readRequest bytes with
  | some (e, checked) => (s.modHost fun h => { h with reception := .hunting }).offerEntry e checked
  | none => s.modHost fun h => { h with reception := .inFrame bytes }

/-- A byte equal to the start byte is taken: HUNTING it begins a frame, IN_FRAME it is data (R180).  Any other byte taken while
HUNTING is ignored and sets last byte end; the table has no row for it, so it has no command and no effect here (DESIGN CHOICE,
assumption log 13). -/
def State.hostStart (s : State) : State :=
  if s.linkUp then
    match s.host.reception with
    | .hunting => s.requestBegins
    | .inFrame taken => s.bytesTaken (taken ++ [startByte])
  else s

/-- HOST_START_BYTE (R180). -/
def execHostStartByte (s : State) : Host.Outcome State Fault Refusal := finish s.hostStart

/-- A request frame completes (R180, R181). -/
def State.frameComplete (s : State) (bytes : List Byte) : State :=
  if s.linkUp ∧ (readRequest bytes).isSome then s.requestBegins.bytesTaken bytes else s

/-- REQUEST_FRAME_COMPLETE (R181).  The frame's start byte is taken within the step where no HOST_START_BYTE has
come for it; bytes that are not a complete frame complete nothing. -/
def execRequestFrameComplete (bytes : List Byte) (s : State) : Host.Outcome State Fault Refusal :=
  finish (s.frameComplete bytes)

/-- A partial request frame is discarded, and LINK_ERROR is set (R180). -/
def State.dropRequest (s : State) : State :=
  (s.modHost fun h => { h with reception := .hunting }).setFlag (.whole .linkError)

/-- HOST_FRAME_GAP_TIMEOUT: the time since last byte end inside a frame has grown beyond 5 ms (R180) on the time base, which
measures it (R147); its first count beyond 5 is 6 (assumption log 5). -/
def execHostFrameGapTimeout (s : State) : Host.Outcome State Fault Refusal :=
  finish (match s.host.reception with
    | .inFrame _ => (s.waitMs (s.host.lastByteEnd.getD 0) (hostGapMs + 1)).dropRequest
    | .hunting => s)

/-- HOST_FRAMING_ERROR: inside a frame it discards the partial frame; last byte end is set either way
(R180). -/
def execHostFramingError (s : State) : Host.Outcome State Fault Refusal :=
  finish (if s.linkUp then
      let s' := s.modHost fun h => { h with lastByteEnd := some s.now }
      match s.host.reception with
      | .inFrame _ => s'.dropRequest
      | .hunting => s'
    else s)

/-- The status of an entry that reaches no block (R184). -/
def errorStatus : Verdict → Option Status
  | .badFrame => some .badFrame
  | .unknown => some .unknown
  | .good _ => none

/-- The service of a BAD_FRAME or UNKNOWN entry at the head of the queue (R184). -/
def State.serveError (s : State) : State :=
  match s.host.queue with
  | e :: _ =>
    match errorStatus e.verdict, s.takeUp e false with
    | some status, some s => (s.answer status).reply e.kind
    | _, _ => s
  | [] => s

/-- SERVE_ERROR_ENTRY (R184). -/
def execServeErrorEntry (s : State) : Host.Outcome State Fault Refusal := finish s.serveError

/-- Is the reply the one to a SOFT_RESET (R174)? -/
def isSoftReset (r : Reply) : Bool := r.kind == some Request.softReset.code && r.status == .ok

/-- The last stop bit of the reply has been sent (R184); after the reply to SOFT_RESET the reset acts
(R174). -/
def State.replyEnds (s : State) : State :=
  match s.host.reply with
  | some r =>
    if isSoftReset r then s.softReset else s.modHost fun h => { h with reply := none }
  | none => s

/-- REPLY_SENT (R184). -/
def execReplySent (s : State) : Host.Outcome State Fault Refusal := finish s.replyEnds

end Sys2Proof.Machine
end

