-- ==== Sys2Proof/Machine/LineEvents.lean ====
section
/-! DEFINITION. Events on a dialogue line that deliver no frame (chapter 6): LINE_GAP_TIMEOUT,
LINE_FRAMING_ERROR, BREAK_RECEIVED, START_OF_FRAME_REPORT, TRANSMIT_START, COLLISION, BACKOFF_RETRY,
FRAME_SENT. -/

namespace Sys2Proof.Machine

/-! ### A collision -/

/-- The Line Interface at a collision (R123): BACKOFF, or at the third the frame is gone. -/
def LineInterface.collide (l : LineInterface) (now : Nat) : LineInterface :=
  let l := l.metLow now
  if l.collisions < 2 then { l with transmitter := .backoff, collisions := l.collisions + 1 }
  else { l with held := none, collisions := 0, transmitter := .idle }

/-- A frame that has failed is reported: it ends a QUERY attempt, and is a line fault for a CLAIM (R95, R100,
R123). -/
def State.frameFails (s : State) (p : PortId) : State :=
  match (s.unit p).exchange with
  | some (.query attempt _) => s.queryAttemptEnds p attempt
  | some (.claim _ _ _ _ _ _ _) => s.lineFault p true
  | _ => s

/-- A collision (R123): another party pulls the line. -/
def State.collides (s : State) (p : PortId) : State :=
  if (s.unit p).line.isSending then
    let failed := decide (2 ≤ (s.unit p).line.collisions)
    let s := (s.setLineLow p true).modLine p fun l => l.collide s.clock.bit
    if failed then s.frameFails p else s
  else s

/-! ### Receiving -/

/-- More than 1 ms passes after last byte end inside a frame: the partial frame is discarded (R118). -/
def State.gapPasses (s : State) (p : PortId) : State :=
  match (s.unit p).line.reception with
  | .inFrame _ =>
    (s.waitUs ((s.unit p).line.lastByteEnd.getD 0) lineGapUs).modLine p fun l =>
      { l with reception := .hunting }
  | .hunting => s

/-- LINE_GAP_TIMEOUT (R118). -/
def execLineGapTimeout (p : PortId) (s : State) : Host.Outcome State Fault Refusal :=
  finish (s.gapPasses p)

/-- The Line Interface at the end of a byte whose stop bit has read low (R117, R126).  The byte began with a fall one byte
ago, or later where the last rise, the end of the byte before or a break's detection is later (assumption log 13).  A low
run that was still running then is the byte's own and stands; any other has ended, and a new one begins at the byte's
fall.  While the part breaks, the break watch is stopped (R125). -/
def LineInterface.badByte (l : LineInterface) (now : Nat) : LineInterface :=
  let start := max (now - byteUs) l.lastSeen
  let l :=
    if l.isBreaking ∨ l.lowShown = some start then l
    else (if l.lowStart.isSome then l.rise start else l).fall start
  { l with reception := .hunting, lastByteEnd := some now }

/-- A byte whose stop bit reads low: last byte end is set, and a partial frame is discarded (R117).  A frame being sent
has met a collision by then, unless the byte is the part's own break. -/
def State.framingError (s : State) (p : PortId) : State :=
  if (s.unit p).state = .off then s
  else
    let s := s.collides p
    let s := if (s.unit p).line.isBreaking then s else s.setLineLow p true
    s.modLine p fun l => l.badByte s.clock.bit

/-- LINE_FRAMING_ERROR (R117). -/
def execLineFramingError (p : PortId) (s : State) : Host.Outcome State Fault Refusal :=
  finish (s.framingError p)

/-- A start bit on a HUNTING line that the part does not pull is reported to Mode Control, on a SMART port in
STANDBY or FEEDING (R121, R177).  It is a fall of the line (R126). -/
def State.frameStarts (s : State) (p : PortId) : State :=
  let u := s.unit p
  if u.mode = .smart ∧ (u.state = .standby ∨ u.state = .feeding) ∧ u.line.reception = .hunting ∧
      u.line.isSending = false ∧ u.line.isBreaking = false then
    let s := (s.lineHigh p).setLineLow p true
    (s.modLine p fun l => { l with lowStart := some s.clock.bit, breakReported := false }).wake .lineAny
  else s

/-- START_OF_FRAME_REPORT (R121). -/
def execStartOfFrameReport (p : PortId) (s : State) : Host.Outcome State Fault Refusal :=
  finish (s.frameStarts p)

/-! ### Sending -/

/-- The line has been high for `us`, and the transmitter begins the held frame (R122, R123). -/
def State.beginSending (s : State) (p : PortId) (us : Nat) : State :=
  let s := s.lineHigh p
  let s := s.waitUs ((s.unit p).line.quietStart.getD s.clock.bit) us
  s.modLine p fun l => { l with transmitter := .sending s.clock.bit }

/-- TRANSMIT_START: a frame in WAITING is sent after 1 ms of quiet, while reception is HUNTING (R122). -/
def execTransmitStart (p : PortId) (s : State) : Host.Outcome State Fault Refusal :=
  finish (if (s.unit p).line.transmitter = .waiting ∧ (s.unit p).line.reception = .hunting then
      s.beginSending p lineGapUs
    else s)

/-- BACKOFF_RETRY: a frame in BACKOFF is sent again after 3 ms of quiet, whatever reception does (R123). -/
def execBackoffRetry (p : PortId) (s : State) : Host.Outcome State Fault Refusal :=
  finish (if (s.unit p).line.transmitter = .backoff then s.beginSending p breakUs else s)

/-- COLLISION (R123). -/
def execCollision (p : PortId) (s : State) : Host.Outcome State Fault Refusal := finish (s.collides p)

/-- The last stop bit of the held frame has read back (R123): n bytes after its start, the frame is removed.
The receiver has taken the frame as well, and discarded it by its sender (R120). -/
def State.frameGone (s : State) (p : PortId) : State :=
  match (s.unit p).line.transmitter with
  | .sending start =>
    let frame := (s.unit p).line.held.getD []
    let s := s.waitUs start (frame.length * byteUs)
    (s.setLineLow p false).modLine p fun l =>
      { (l.byteTaken s.clock.bit (frame.getLastD 0#8)).withdraw with reception := .hunting }
  | _ => s

/-- FRAME_SENT (R123). -/
def execFrameSent (p : PortId) (s : State) : Host.Outcome State Fault Refusal := finish (s.frameGone p)

/-! ### A received break -/

/-- What a port does with a reported break (R82, R109). -/
def State.breakReported (s : State) (p : PortId) : State :=
  let u := s.unit p
  if u.listens then
    match u.state with
    | .discover | .standby => (s.giveUp p).enterDiscover p
    | .claiming | .switching | .feeding => s.lineFault p false
    | .off | .empty | .debounce | .faulted => s
  else s

/-- The Line Interface at the detection of a break: 2 ms of low since the fall (R126). -/
def State.breakDetected (s : State) (p : PortId) : State :=
  let low := (s.unit p).line.lowStart.getD s.clock.bit
  let s := (s.setLineLow p true).waitUs low breakDetectUs
  (s.modLine p fun l =>
    { l with lowStart := some low, breakReported := true, reception := .hunting }).breakReported p

/-- A break comes from the far end (R126).  The watch is stopped in OFF and while the part breaks; a low run
already reported is reported once; a frame being sent has met a collision by then. -/
def State.breakComes (s : State) (p : PortId) : State :=
  let s := s.collides p
  let l := (s.unit p).line
  if (s.unit p).state = .off ∨ l.isBreaking ∨ (l.lowStart.isSome ∧ l.breakReported) then s
  else s.breakDetected p

/-- BREAK_RECEIVED (R126, R109, R82). -/
def execBreakReceived (p : PortId) (s : State) : Host.Outcome State Fault Refusal :=
  finish (s.breakComes p)

end Sys2Proof.Machine
end

