-- ==== Sys2Proof/Machine/PolicyRequests.lean ====
section
/-! DEFINITION. The requests that set policy and steer the Arbiter: TAKE_CONTROL, RELEASE_CONTROL, SET_DEMAND,
SET_LIMIT, SET_MASK, HALT, RESUME, SET_SILENCE, SLEEP, SOFT_RESET; and SILENCE_EXPIRY, which ends in the
same entry to AUTONOMOUS as RELEASE_CONTROL. -/

namespace Sys2Proof.Machine

/-! ### Demand and limit -/

/-- Write D, clamped (R170). -/
def State.writeDemand (s : State) (demand : Nat) : State :=
  s.modMode fun m => { m with demand := min maxDemand demand }

/-- L as a limit is written: pulled between 5000 mW and the class (R170). -/
def State.limitFor (s : State) (limit : Nat) : Nat := clampTo minLimit s.classPower limit

/-- Write L, clamped, with what the Path Controller does: the scaling where L fell, the raise where it rose
(R137, R140). -/
def State.writeLimit (s : State) (limit : Nat) : State :=
  let old := s.mode.limit
  let s := s.modMode fun m => { m with limit := s.limitFor limit }
  if s.mode.limit < old then s.scale
  else if old < s.mode.limit then s.raise
  else s

/-- Was a demand or a limit pulled into its range (R170)? -/
def State.pulled (s : State) (demand limit : Nat) : Bool :=
  decide (maxDemand < demand) || s.limitFor limit != limit

/-- TAKE_CONTROL's work (R170). -/
def State.takeControl (s : State) (demand limit : Nat) : Answer :=
  let lowered := decide (s.limitFor limit < s.mode.limit)
  let status := clampStatus (s.pulled demand limit)
  let entered := s.mode.authority == .autonomous
  let s := (s.writeDemand demand).writeLimit limit
  let s := if lowered ∧ s.mode.limit < s.contractSum then s.post .shed .whole else s
  let s :=
    if entered then
      (s.modMode fun m => { m with
        authority := .directed
        silenceElapsed := if 0 < m.silenceTimeout then some 0 else none }).setFlag (.whole .authority)
    else s
  (s.post .change .whole).answer status

/-- TAKE_CONTROL (R170). -/
def execTakeControl (demand limit : Word32) (s : State) : Host.Outcome State Fault Refusal :=
  finish (s.serve .takeControl (be32 demand.toNat ++ be32 limit.toNat) fun s =>
    s.takeControl demand.toNat limit.toNat)

/-- SET_DEMAND's work in DIRECTED authority (R172). -/
def State.setDemand (s : State) (demand : Nat) : Answer :=
  let old := s.mode.demand
  let s := s.writeDemand demand
  let s := if s.mode.demand ≠ old then s.post .change .whole else s
  s.answer (clampStatus (decide (maxDemand < demand)))

/-- SET_DEMAND (R172). -/
def execSetDemand (demand : Word32) (s : State) : Host.Outcome State Fault Refusal :=
  finish (s.serve .setDemand (be32 demand.toNat) fun s => s.inDirected fun s => s.setDemand demand.toNat)

/-- SET_LIMIT's work in DIRECTED authority (R172). -/
def State.setLimit (s : State) (limit : Nat) : Answer :=
  let old := s.mode.limit
  let status := clampStatus (s.limitFor limit != limit)
  let s := s.writeLimit limit
  let s :=
    if s.mode.limit < old ∧ s.mode.limit < s.contractSum then s.post .shed .whole
    else if s.mode.limit ≠ old then s.post .change .whole
    else s
  s.answer status

/-- SET_LIMIT (R172). -/
def execSetLimit (limit : Word32) (s : State) : Host.Outcome State Fault Refusal :=
  finish (s.serve .setLimit (be32 limit.toNat) fun s => s.inDirected fun s => s.setLimit limit.toNat)

/-! ### The Arbiter's masks and halted flag -/

/-- SET_MASK: both masks are written; bits 7..2 are not read (R45, R195). -/
def execSetMask (masks : Byte) (s : State) : Host.Outcome State Fault Refusal :=
  finish (s.serve .setMask [masks] fun s => s.inDirected fun s =>
    (s.modArb fun a => { a with gainMasked := byteBit masks 0, changeMasked := byteBit masks 1 }).answer .ok)

/-- HALT: the halted flag is set (R62). -/
def execHalt (s : State) : Host.Outcome State Fault Refusal :=
  finish (s.serve .halt [] fun s => s.inDirected fun s =>
    (s.modArb fun a => { a with halted := true }).answer .ok)

/-- The halted flag is cleared, and a rebalance that waited goes on or is abandoned (R63); the take that may
follow is a TAKE of its own. -/
def State.unhalt (s : State) : State :=
  if s.arb.halted then (s.modArb fun a => { a with halted := false }).act else s

/-- RESUME (R63). -/
def execResume (s : State) : Host.Outcome State Fault Refusal :=
  finish (s.serve .resume [] fun s => s.inDirected fun s => s.unhalt.answer .ok)

/-! ### Authority -/

/-- The entry to AUTONOMOUS from DIRECTED (R64, R171). -/
def State.enterAutonomous (s : State) : State :=
  let rose := decide (s.mode.limit < s.classPower)
  let s := s.modMode fun m => { m with
    authority := .autonomous, demand := s.classPower, limit := s.classPower, silenceElapsed := none }
  let s := if rose then s.raise else s
  let s := (s.modArb fun a => { a with gainMasked := false, changeMasked := false }).unhalt
  (s.setFlag (.whole .authority)).post .change .whole

/-- RELEASE_CONTROL's work: nothing in AUTONOMOUS authority (R171). -/
def State.releaseControl (s : State) : Answer :=
  match s.mode.authority with
  | .directed => s.enterAutonomous.answer .ok
  | .autonomous => s.answer .ok

/-- RELEASE_CONTROL (R171). -/
def execReleaseControl (s : State) : Host.Outcome State Fault Refusal :=
  finish (s.serve .releaseControl [] State.releaseControl)

/-- SET_SILENCE's work (R173). -/
def State.setSilence (s : State) (seconds : Nat) : Answer :=
  let timeout := min maxSilence seconds
  let elapsed := if s.mode.authority = .directed ∧ 0 < timeout then some 0 else none
  (s.modMode fun m => { m with silenceTimeout := timeout, silenceElapsed := elapsed }).answer
    (clampStatus (decide (maxSilence < seconds)))

/-- SET_SILENCE (R173). -/
def execSetSilence (seconds : Byte) (s : State) : Host.Outcome State Fault Refusal :=
  finish (s.serve .setSilence [seconds] fun s => s.setSilence seconds.toNat)

/-- The expiry of the silence timer, once it has counted the timeout (R173). -/
def State.silenceExpires (s : State) : State :=
  match s.mode.silenceElapsed with
  | some elapsed =>
    if s.mode.authority = .directed ∧ 0 < s.mode.silenceTimeout ∧ s.mode.power = .active then
      let left := s.mode.silenceTimeout * 1000 - elapsed
      (s.pass (left * 1000 - if left = 0 then 0 else s.clock.bit % 1000)).enterAutonomous
    else s
  | none => s

/-- SILENCE_EXPIRY: the part enters AUTONOMOUS (R173); nothing where the timer does not run. -/
def execSilenceExpiry (s : State) : Host.Outcome State Fault Refusal := finish s.silenceExpires

/-! ### DORMANT and SOFT_RESET -/

/-- Does a port keep the part from sleeping (R175)? -/
def PortUnit.inProgress (u : PortUnit) : Bool :=
  match u.state with
  | .debounce | .discover | .claiming | .switching => true
  | .faulted => u.coolDownStart.isSome
  | .off | .empty | .standby | .feeding => false

/-- Does a wake condition already hold (R175)? -/
def State.alreadyHolds (s : State) (w : WakeSet) : Bool :=
  let ports (f : PortId → Bool) : Bool := PortId.all.any f
  (w.attachAny && ports fun p => (s.unit p).state == .empty && s.pins.presence.get p) ||
  (w.detachFeed && ports fun p => s.isClosed p && !s.pins.presence.get p) ||
  (w.lineAny && ports fun p => (s.unit p).line.reception.isInFrame && (s.unit p).mode == .smart &&
    ((s.unit p).state == .standby || (s.unit p).state == .feeding)) ||
  (w.link && (!s.host.queue.isEmpty || s.host.reception.isInFrame)) ||
  (w.railLow && s.prot.railAsserted == some true)

/-- SLEEP's work: its checks in order, and the entry to DORMANT (R175). -/
def State.sleep (s : State) (wake : Byte) : Answer :=
  match wakeSetOf wake with
  | none => s.answer .range
  | some w =>
    if s.arb.inService.isSome || PortId.all.any fun p => (s.unit p).inProgress then s.answer .busy
    else if s.alreadyHolds w then s.answer .awake
    else (s.modMode fun m => { m with power := .dormant, wakeSet := some w }).answer .ok

/-- SLEEP (R175). -/
def execSleep (wake : Byte) (s : State) : Host.Outcome State Fault Refusal :=
  finish (s.serve .sleep [wake] fun s => s.sleep wake)

/-- SOFT_RESET is answered OK; the reset acts when the reply has been sent (R174, REPLY_SENT). -/
def execSoftReset (s : State) : Host.Outcome State Fault Refusal :=
  finish (s.serve .softReset [] fun s => s.answer .ok)

end Sys2Proof.Machine
end

