-- ==== Sys2Proof/Machine/PortRequests.lean ====
section
/-! DEFINITION. The requests that act on a port: SET_PORT, PORT_ENABLE, PORT_DISABLE, PORT_RESTART. -/

namespace Sys2Proof.Machine

/-! ### SET_PORT -/

/-- What a change of derate does to the port's channel at once (R139, R141): the cut where it was lowered,
the raise where it was raised on a bound port. -/
def State.derateMoved (s : State) (p : PortId) (old : Nat) : State :=
  let new := (s.unit p).derate
  if new < old then
    if (s.unit p).contract.isSome then
      (s.modDraw p (min (s.contractIder p))).postCut (some ⟨.change, .port p⟩)
    else s
  else if old < new ∧ s.isBound p then s.raise
  else s

/-- The writes of an accepted SET_PORT (R90). -/
def State.writePort (s : State) (p : PortId) (rank derate : Nat) (mode : PortMode) : Answer :=
  let u := s.unit p
  let stored := clampTo 25 100 derate
  let s := s.modUnit p fun u => { u with rank := rank, derate := stored, mode := mode }
  let s := s.derateMoved p u.derate
  let s := if rank ≠ u.rank ∨ stored ≠ u.derate then s.post .change (.port p) else s
  s.answer (clampStatus (stored != derate))

/-- SET_PORT's checks after authority and port, and its work (R90). -/
def State.setPort (s : State) (p : PortId) (rank derate : Nat) (mode : Byte) : Answer :=
  match portModeOf mode with
  | none => s.answer .range
  | some m =>
    if 3 < rank then s.answer .range
    else if m ≠ (s.unit p).mode ∧ (s.unit p).state ≠ .off then s.answer .notOff
    else s.writePort p rank derate m

/-- SET_PORT (R90). -/
def execSetPort (port rank derate mode : Byte) (s : State) : Host.Outcome State Fault Refusal :=
  finish (s.serve .setPort [port, rank, derate, mode] fun s => s.inDirected fun s =>
    s.onPort port fun s p => s.setPort p rank.toNat derate.toNat mode)

/-! ### PORT_ENABLE -/

/-- PORT_ENABLE's work (R71): a port in OFF leaves it; any other is left as it is. -/
def State.enablePort (s : State) (p : PortId) : Answer :=
  if (s.unit p).state = .off then (s.outOfOff p).answer .ok else s.answer .ok

/-- PORT_ENABLE (R71). -/
def execPortEnable (port : Byte) (s : State) : Host.Outcome State Fault Refusal :=
  finish (s.serve .portEnable [port] fun s => s.onPort port State.enablePort)

/-! ### PORT_RESTART and PORT_DISABLE -/

/-- What both requests do to a port's dialogue and contract (R88, steps 1 to 4 and 6). -/
def State.stopPort (s : State) (p : PortId) : State :=
  let fed := (s.unit p).state == .feeding
  let held := (s.unit p).contract.isSome
  let s := s.giveUp p
  let s := if (s.unit p).state.isProven then s.sendBreak p else s
  let s := if held then s.endContract p else s
  let s := s.modUnit p fun u => { u with
    legacy := false, restarts := 0, trips := 0
    discoveryStart := none, cleanRunStart := none, coolDownStart := none, resyncStart := none }
  if fed then s.post .loss (.port p)
  else if held then s.post .change .whole
  else s

/-- The next state of a restarted port (R88, step 5). -/
def State.restartPort (s : State) (p : PortId) : State :=
  let u := s.unit p
  if u.state = .empty then s
  else if u.state = .debounce ∨ u.isPresent = false then
    s.modUnit p fun u => { u.cleared .debounce with
      presence := if u.isPresent then some ⟨true, s.now⟩ else u.presence }
  else s.enterDiscover p

/-- A port in OFF is answered OK with no change, and a sole feed is refused (R88, R89); otherwise the step in
flight on the port is ABORTED and `work` is done. -/
def State.takePort (s : State) (p : PortId) (work : State → State) : Answer :=
  if (s.unit p).state = .off then s.answer .ok
  else if s.soleFeed p then s.answer .soleFeed
  else (s.endingStep p .aborted work).answer .ok

/-- PORT_RESTART (R88). -/
def execPortRestart (port : Byte) (s : State) : Host.Outcome State Fault Refusal :=
  finish (s.serve .portRestart [port] fun s => s.onPort port fun s p =>
    s.takePort p fun s => (s.stopPort p).restartPort p)

/-- PORT_DISABLE (R89): the port enters OFF with enabled no. -/
def execPortDisable (port : Byte) (s : State) : Host.Outcome State Fault Refusal :=
  finish (s.serve .portDisable [port] fun s => s.onPort port fun s p =>
    s.takePort p fun s =>
      ((s.stopPort p).intoOff p).modUnit p fun u => { u with enabled := false })

end Sys2Proof.Machine
end

