-- ==== Sys2Proof/Machine/PresenceEvents.lean ====
section
/-! DEFINITION. The presence line and the port's own timers (chapter 4): PRESENCE_ASSERT, PRESENCE_LOSS,
DEBOUNCE_END, DETACH, DISCOVERY_TIMEOUT, COOL_DOWN_END, CLEAN_RUN_END.

A timer's command lets time pass until its duration is over, where it is not over yet (assumption
log 1). -/

namespace Sys2Proof.Machine

/-- What the presence line of a port reads. -/
def State.setPresencePin (s : State) (p : PortId) (level : Bool) : State :=
  s.modPins fun x => { x with presence := x.presence.set p level }

/-- The Presence Monitor sees a level begin; nothing in OFF, or at a level it already saw (R72). -/
def State.seePresence (s : State) (p : PortId) (level : Bool) : State :=
  s.modUnit p fun u =>
    match u.presence with
    | some m => if u.state = .off ∨ m.asserted = level then u else { u with presence := some ⟨level, s.now⟩ }
    | none => u

/-- The presence line is asserted (R72): in EMPTY a debounce begins and ATTACH_ANY is raised; in DEBOUNCE a
line that returns begins a new debounce; elsewhere it has no effect. -/
def State.presenceAsserts (s : State) (p : PortId) : State :=
  let began := (s.unit p).state == .empty && !(s.unit p).isPresent
  let s := (s.setPresencePin p true).seePresence p true
  if began then (s.setPortState p .debounce).wake .attachAny else s

/-- PRESENCE_ASSERT (R72, R177). -/
def execPresenceAssert (p : PortId) (s : State) : Host.Outcome State Fault Refusal :=
  finish (s.presenceAsserts p)

/-- The presence line goes absent (R72). -/
def State.presenceGoes (s : State) (p : PortId) : State :=
  (s.setPresencePin p false).seePresence p false

/-- PRESENCE_LOSS (R72). -/
def execPresenceLoss (p : PortId) (s : State) : Host.Outcome State Fault Refusal :=
  finish (s.presenceGoes p)

/-- Let time pass until the presence line has been at its level for `ms`. -/
def State.waitPresence (s : State) (p : PortId) (ms : Nat) : State :=
  match (s.unit p).presence with
  | some m => s.waitMs m.start ms
  | none => s

/-- Presence has been held for 50 ms (R72): DISCOVER, with ATTACH. -/
def State.debounceEnds (s : State) (p : PortId) : State :=
  if (s.unit p).state = .debounce then
    let s := (s.presenceAsserts p).waitPresence p debounceMs
    (s.setFlag (.port p .attach)).enterDiscover p
  else s

/-- DEBOUNCE_END (R72). -/
def execDebounceEnd (p : PortId) (s : State) : Host.Outcome State Fault Refusal :=
  finish (s.debounceEnds p)

/-- The effects of a detach on its port, its step already ABORTED (R73). -/
def State.detachPort (s : State) (p : PortId) : State :=
  let fed := (s.unit p).state == .feeding
  let closed := s.isClosed p
  let s := s.giveUp p
  let s := if (s.unit p).contract.isSome then s.endContract p else s
  let s := s.modUnit p fun u => { u with legacy := false, restarts := 0, trips := 0 }
  let s := (s.intoEmpty p).setFlag (.port p .detach)
  let s := if fed then s.post .loss (.port p) else s.post .change .whole
  if closed then s.wake .detachFeed else s

/-- An absence of 5 ms is a detach, in DEBOUNCE through FAULTED (R72, R73). -/
def State.detaches (s : State) (p : PortId) : State :=
  if (s.unit p).state = .debounce ∨ (s.unit p).state.isProven then
    ((s.presenceGoes p).waitPresence p detachMs).endingStep p .aborted fun s => s.detachPort p
  else s

/-- DETACH (R73). -/
def execDetach (p : PortId) (s : State) : Host.Outcome State Fault Refusal := finish (s.detaches p)

/-- 400 ms in DISCOVER with no OFFERS stored make a port that speaks legacy (R75, R76). -/
def State.discoveryFails (s : State) (p : PortId) : State :=
  let u := s.unit p
  match u.discoveryStart with
  | some start =>
    if u.state = .discover ∧ u.speaks ∧ u.table.gen = none then
      let s := (s.waitMs start discoveryMs).modUnit p fun u => { u with legacy := true }
      (s.setFlag (.port p .legacy)).leaveDiscover p
    else s
  | none => s

/-- DISCOVERY_TIMEOUT (R76). -/
def execDiscoveryTimeout (p : PortId) (s : State) : Host.Outcome State Fault Refusal :=
  finish (s.discoveryFails p)

/-- A cool-down of 2000 ms ends: a break on a SMART port, and DISCOVER (R87). -/
def State.coolDownEnds (s : State) (p : PortId) : State :=
  match (s.unit p).coolDownStart with
  | some start =>
    if (s.unit p).state = .faulted then
      let s := (s.waitMs start coolDownMs).sendBreak p
      (s.modUnit p fun u => { u with coolDownStart := none }).enterDiscover p
    else s
  | none => s

/-- COOL_DOWN_END (R87). -/
def execCoolDownEnd (p : PortId) (s : State) : Host.Outcome State Fault Refusal :=
  finish (s.coolDownEnds p)

/-- A clean run of 10,000 ms sets the trip count to 0 (R86). -/
def State.cleanRunEnds (s : State) (p : PortId) : State :=
  match (s.unit p).cleanRunStart with
  | some start =>
    if s.isClosed p then (s.waitMs start cleanRunMs).modUnit p fun u => { u with trips := 0 } else s
  | none => s

/-- CLEAN_RUN_END (R86). -/
def execCleanRunEnd (p : PortId) (s : State) : Host.Outcome State Fault Refusal :=
  finish (s.cleanRunEnds p)

end Sys2Proof.Machine
end

