-- ==== Sys2Proof/Machine/ReadRequests.lean ====
section
/-! DEFINITION. The reading requests, and those of the meters, the captures and the event flags: GET_STATUS,
GET_PORT, GET_OFFERS, GET_PLAN, SNAPSHOT, CLEAR_ENERGY, GET_CAPTURE, GET_EVENTS, CLEAR_EVENTS,
SET_EVENT_MASK. -/

namespace Sys2Proof.Machine

/-- GET_STATUS: the status record as it stands at the service (R186). -/
def execGetStatus (s : State) : Host.Outcome State Fault Refusal :=
  finish (s.serve .getStatus [] fun s => s.answerWith s.statusPayload)

/-- GET_PORT: a port's records as they stand at the service (R187). -/
def execGetPort (port : Byte) (s : State) : Host.Outcome State Fault Refusal :=
  finish (s.serve .getPort [port] fun s => s.onPort port fun s p => s.answerWith (s.portPayload p))

/-- GET_OFFERS: a port's offer table with the figures computed at the service (R42). -/
def execGetOffers (port : Byte) (s : State) : Host.Outcome State Fault Refusal :=
  finish (s.serve .getOffers [port] fun s => s.onPort port fun s p => s.answerWith (s.offersPayload p))

/-- GET_PLAN: the Arbiter's state as it stands at the service (R68). -/
def execGetPlan (s : State) : Host.Outcome State Fault Refusal :=
  finish (s.serve .getPlan [] fun s => s.answerWith s.planPayload)

/-- SNAPSHOT's work: the record is written and carried by the reply (R160). -/
def State.takeSnapshot (s : State) : Answer :=
  (s.modProt fun x => { x with snapshot := some s.energyNow }).answerWith s.energyNow.payload

/-- SNAPSHOT (R160). -/
def execSnapshot (s : State) : Host.Outcome State Fault Refusal :=
  finish (s.serve .snapshot [] State.takeSnapshot)

/-- CLEAR_ENERGY: the port's W and F become 0 (R159). -/
def execClearEnergy (port : Byte) (s : State) : Host.Outcome State Fault Refusal :=
  finish (s.serve .clearEnergy [port] fun s => s.onPort port fun s p =>
    (s.modMeter p fun m => { m with whole := 0, fine := 0 }).answer .ok)

/-- GET_CAPTURE: the port's capture with its lock, which reading leaves (R156). -/
def execGetCapture (port : Byte) (s : State) : Host.Outcome State Fault Refusal :=
  finish (s.serve .getCapture [port] fun s => s.onPort port fun s p => s.answerWith (s.capturePayload p))

/-- GET_EVENTS: every flag and every mask entry (R189). -/
def execGetEvents (s : State) : Host.Outcome State Fault Refusal :=
  finish (s.serve .getEvents [] fun s => s.answerWith s.host.eventsPayload)

/-- The capture unlocked (R156). -/
def Meter.unlock (m : Meter) : Meter :=
  { m with capture := m.capture.map fun c => { c with locked := false } }

/-- CLEAR_EVENTS' work: the listed flags clear, and the capture of each port whose DROOP is listed is
unlocked (R156, R189). -/
def State.clearFlags (s : State) (listed : FlagSet) : Answer :=
  let unlock (p : PortId) (m : Meter) : Meter := if (listed.port.get p).droop then m.unlock else m
  let s := s.modProt fun x => { x with
    port := ⟨unlock .p1 x.port.p1, unlock .p2 x.port.p2, unlock .p3 x.port.p3, unlock .p4 x.port.p4⟩ }
  (s.modHost fun h => { h with flags := h.flags.minus listed }).answer .ok

/-- CLEAR_EVENTS (R189). -/
def execClearEvents (flags : Word32) (s : State) : Host.Outcome State Fault Refusal :=
  finish (s.serve .clearEvents (be32 flags.toNat) fun s => s.clearFlags (.ofVector flags))

/-- SET_EVENT_MASK: the whole mask is written (R190). -/
def execSetEventMask (flags : Word32) (s : State) : Host.Outcome State Fault Refusal :=
  finish (s.serve .setEventMask (be32 flags.toNat) fun s =>
    (s.modHost fun h => { h with mask := .ofVector flags }).answer .ok)

end Sys2Proof.Machine
end

