-- ==== Sys2Proof/Machine/Sensing.lean ====
section
/-! DEFINITION. The sensed inputs and the take: SAMPLE (chapter 8), RAIL_LOW_ASSERT, RAIL_LOW_CLEAR (R157),
BATTERY_CHANGE (R142) and TAKE (R46 to R48). -/

namespace Sys2Proof.Machine

/-! ### Over-current -/

/-- The reference current of a port (R150). -/
def State.reference (s : State) (p : PortId) : Nat :=
  match (s.portPath p).state with
  | .closed => s.drawOf p
  | .precharge | .openPath => ((s.unit p).contract.map Contract.current).getD 0

/-- The allowance A of a reference current (R150). -/
def allowance (reference : Nat) : Nat := reference + reference / 8

/-- The accumulator after a sample of `m` mA against the allowance `a` (R150). -/
def integrate (x a m : Nat) : Nat :=
  if a < m then min accumulatorTop (x + (m - a)) else x - min x ((a - m) / 4)

/-- The trip's effects on its port, its step already ABORTED (R85, R152).  DESIGN CHOICE (assumption log 22): R152 says that a
trip leaves no denial cap and no droop cap, and the clearing lists of R21 and R22 name no trip; here a trip writes no cap and
clears none, and a cap already standing stays until a clearing event of R21 or R22. -/
def State.tripPort (s : State) (p : PortId) : State :=
  let s := s.giveUp p
  let s := if (s.unit p).contract.isSome then s.endContract p else s.openPath p
  let s := s.modUnit p fun u =>
    let trips := min countTop (u.trips + 1)
    { u with
      state := .faulted, trips := trips, discoveryStart := none, resyncStart := none
      coolDownStart := if trips < countTop then some s.now else none }
  (s.setFlag (.port p .trip)).post .shed (.port p)

/-- An over-current trip (R61, R152). -/
def State.trip (s : State) (p : PortId) : State := s.endingStep p .aborted fun s => s.tripPort p

/-! ### Droop and energy -/

/-- Is a voltage below 90 % of an operating voltage (R154)? -/
def isLow (vop v : Nat) : Bool := v < vop * 90 / 100

/-- The droop run count after a sample (R154). -/
def State.droopRunAfter (s : State) (p : PortId) : Nat :=
  match (s.unit p).contract with
  | some k =>
    if (s.unit p).state = .feeding ∧ isLow k.vop (s.voltage p) then
      min persistentCount ((s.meter p).droopRun + 1)
    else 0
  | none => 0

/-- A droop (R154): the capture is written and locked where it is absent or unlocked, and DROOP is set. -/
def State.droop (s : State) (p : PortId) : State :=
  let s :=
    if (s.meter p).capture.any Capture.locked then s
    else s.modMeter p fun m => { m with
      capture := some
        { time := s.now, voltage := s.voltage p, current := s.current p
          vop := ((s.unit p).contract.map Contract.vop).getD 0, cause := .droop, locked := true } }
  s.setFlag (.port p .droop)

/-- A persistent droop (R22, R155): the droop cap, and CHANGE for the port. -/
def State.persistentDroop (s : State) (p : PortId) : State :=
  (s.modUnit p fun u => { u with droopCap := some (u.committed * 75 / 100) }).post .change (.port p)

/-- The droop count of a sample of a CLOSED path (R154, R155). -/
def State.countDroop (s : State) (p : PortId) : State :=
  let before := (s.meter p).droopRun
  let run := s.droopRunAfter p
  let s := s.modMeter p fun m => { m with droopRun := run }
  let s := if before < droopCount ∧ run = droopCount then s.droop p else s
  if before < persistentCount ∧ run = persistentCount then s.persistentDroop p else s

/-- The energy counters after a sample (R158). -/
def Meter.addEnergy (m : Meter) (v i : Nat) : Meter :=
  let fine := m.fine + v * i / 1000
  if mwMsPerMwh ≤ fine then
    { m with fine := fine - mwMsPerMwh, whole := (m.whole + 1) % wholeEnergyWrap }
  else { m with fine := fine }

/-! ### A sample -/

/-- The test of a SETTLE at a sample (R107, R133): in the new window, the change is done. -/
def State.settleTest (s : State) (p : PortId) : State :=
  match (s.unit p).exchange with
  | some (.settle vop _) =>
    if inWindow vop (s.voltage p) then ((s.giveUp p).setPortState p .feeding).stepEnds p .done else s
  | _ => s

/-- The work of a sample that does not trip (R148): on a CLOSED path the droop count, the energy count and a
SETTLE's test. -/
def State.sampleClosed (s : State) (p : PortId) : State :=
  if s.isClosed p then
    let s := s.countDroop p
    let s := s.modMeter p fun m => m.addEnergy (s.voltage p) (s.current p)
    s.settleTest p
  else s

/-- A sample of a port whose path is PRECHARGE or CLOSED (R148, R150, R151). -/
def State.samplePort (s : State) (p : PortId) : State :=
  if hardTripCurrent ≤ s.current p then s.trip p
  else
    let x := integrate (s.meter p).excess (allowance (s.reference p)) (s.current p)
    let s := s.modMeter p fun m => { m with excess := x }
    if tripThreshold ≤ x then s.trip p else s.sampleClosed p

/-- The port's sense input reads some values (00_scope.md); a port whose path is OPEN is not sampled (R148). -/
def State.sampled (s : State) (p : PortId) (voltage current : Nat) : State :=
  let s := s.modPins fun x => { x with sense := x.sense.set p ⟨voltage, current⟩ }
  if (s.portPath p).state = .openPath then s else s.samplePort p

/-- SAMPLE (R148). -/
def execSample (p : PortId) (voltage current : Nat) (s : State) : Host.Outcome State Fault Refusal :=
  finish (s.sampled p voltage current)

/-! ### The rail comparator and the battery line -/

/-- The rail-low comparator's line is asserted; the watch reads it from the end of STARTING (R157). -/
def State.railGoesLow (s : State) : State :=
  let s := s.modPins fun x => { x with railLow := true }
  if s.prot.railAsserted = some false then s.railAsserts.wake .railLow else s

/-- RAIL_LOW_ASSERT (R157, R177). -/
def execRailLowAssert (s : State) : Host.Outcome State Fault Refusal := finish s.railGoesLow

/-- The rail-low comparator's line is cleared: the rail level follows, and nothing more (R157). -/
def State.railRecovers (s : State) : State :=
  let s := s.modPins fun x => { x with railLow := false }
  s.modProt fun x => { x with railAsserted := x.railAsserted.map fun _ => false }

/-- RAIL_LOW_CLEAR (R157). -/
def execRailLowClear (s : State) : Host.Outcome State Fault Refusal := finish s.railRecovers

/-- The battery-present line reads a level; a change of the level read posts CHANGE GLOBAL (R142). -/
def State.batteryReads (s : State) (present : Bool) : State :=
  let s := s.modPins fun x => { x with batteryPresent := present }
  if s.path.batteryPresent = some (!present) then
    ((s.modPath fun x => { x with batteryPresent := some present }).post .change .whole).wake
      .batteryChange
  else s

/-- BATTERY_CHANGE (R142, R177). -/
def execBatteryChange (present : Bool) (s : State) : Host.Outcome State Fault Refusal :=
  finish (s.batteryReads present)

/-! ### The take -/

/-- The Arbiter takes the first entry of the take order, where it may take (R46 to R48). -/
def State.take (s : State) : State :=
  if s.mayTake then
    match s.takeable.head? with
    | some e => s.takeEntry e
    | none => s
  else s

/-- TAKE (R48). -/
def execTake (s : State) : Host.Outcome State Fault Refusal := finish s.take

end Sys2Proof.Machine
end

