-- ==== Sys2Proof/Machine/Waits.lean ====
section
/-! DEFINITION. The dialogue's waits, the window and precharge running out: QUERY_WAIT_EXPIRY,
CLAIM_WAIT_EXPIRY, READY_TIMEOUT, SETTLE_TIMEOUT, RESYNC_EXPIRY, WINDOW_EXPIRY, PRECHARGE_END.

A wait's command lets time pass until the wait is over, where it is not over yet (assumption log 1); where
the wait does not run, it does nothing. -/

namespace Sys2Proof.Machine

/-- A QUERY attempt's 30 ms run out (R95).  A QUERY that waits for the end of the part's break is handed over
first. -/
def State.queryExpires (s : State) (p : PortId) : State :=
  let s := s.breakReleases p
  match (s.unit p).exchange with
  | some (.query attempt (some start)) => (s.waitMs start attemptMs).queryAttemptEnds p attempt
  | _ => s

/-- QUERY_WAIT_EXPIRY (R95). -/
def execQueryWaitExpiry (p : PortId) (s : State) : Host.Outcome State Fault Refusal :=
  finish (match (s.unit p).exchange with
    | some (.query _ _) => s.queryExpires p
    | _ => s)

/-- A CLAIM attempt's 30 ms run out (R100): the next attempt is handed over, or a line fault follows. -/
def State.claimExpires (s : State) (p : PortId) : State :=
  match (s.unit p).exchange with
  | some (.claim purpose index current vop gen attempt start) =>
    let s := s.waitMs start attemptMs
    if attempt < 3 then (s.giveUp p).sendClaim p purpose index current vop gen (attempt + 1)
    else s.lineFault p true
  | _ => s

/-- CLAIM_WAIT_EXPIRY (R100). -/
def execClaimWaitExpiry (p : PortId) (s : State) : Host.Outcome State Fault Refusal :=
  finish (s.claimExpires p)

/-- A READY wait runs its 500 ms: a line fault (R106). -/
def State.readyExpires (s : State) (p : PortId) : State :=
  match (s.unit p).exchange with
  | some (.ready _ start) => (s.waitMs start readyMs).lineFault p true
  | _ => s

/-- READY_TIMEOUT (R106). -/
def execReadyTimeout (p : PortId) (s : State) : Host.Outcome State Fault Refusal :=
  finish (s.readyExpires p)

/-- A SETTLE wait runs its 500 ms: a voltage-window failure of the change (R107). -/
def State.settleExpires (s : State) (p : PortId) : State :=
  match (s.unit p).exchange with
  | some (.settle _ start) => ((s.waitMs start readyMs).giveUp p).failChange p
  | _ => s

/-- SETTLE_TIMEOUT (R107). -/
def execSettleTimeout (p : PortId) (s : State) : Host.Outcome State Fault Refusal :=
  finish (s.settleExpires p)

/-- 300 ms pass in a resync (R103): a line fault, or in STANDBY a break and DISCOVER. -/
def State.resyncExpires (s : State) (p : PortId) : State :=
  match (s.unit p).resyncStart with
  | some start =>
    let s := (s.waitMs start resyncMs).modUnit p fun u => { u with resyncStart := none }
    match (s.unit p).state with
    | .claiming | .switching | .feeding => s.lineFault p true
    | .standby => (s.sendBreak p).enterDiscover p
    | .off | .empty | .debounce | .discover | .faulted => s
  | none => s

/-- RESYNC_EXPIRY (R103). -/
def execResyncExpiry (p : PortId) (s : State) : Host.Outcome State Fault Refusal :=
  finish (s.resyncExpires p)

/-- A VALID window's contract is carried into the table's generation; a ceiling goes, and the raise follows
its removal (R19, R137, R138). -/
def State.carry (s : State) (p : PortId) : State :=
  let gen := (s.unit p).table.gen
  let s := s.modContract p fun k => { k with gen := gen, window := none }
  if (s.portPath p).ceiling.isSome then (s.dropCeiling p).raise else s

/-- A VALID window expires (R19): the contract is carried, and an outstanding claim is given up, so that a
GRANT that comes for it is discarded; its port is in FEEDING again, and its step fails (DEDUCED,
assumption log 17). -/
def State.windowCarries (s : State) (p : PortId) : State :=
  match (s.unit p).exchange with
  | some (.claim _ _ _ _ _ _ _) => ((s.staleClaim p).carry p).stepEnds p .failed
  | _ => s.carry p

/-- 200 ms pass in an offer-change window (R19): the contract is carried, or lapses. -/
def State.windowExpires (s : State) (p : PortId) : State :=
  match (s.unit p).contract.bind Contract.window with
  | some w =>
    let s := s.waitMs w.start windowMs
    match w.verdict with
    | .valid => s.windowCarries p
    | .invalid => s.failChange p
  | none => s

/-- WINDOW_EXPIRY (R19). -/
def execWindowExpiry (p : PortId) (s : State) : Host.Outcome State Fault Refusal :=
  finish (s.windowExpires p)

/-- The voltage test at the end of precharge (R131): the path closes and the NEW is DONE, or the NEW fails. -/
def State.endPrecharge (s : State) (p : PortId) : State :=
  if s.voltageOk p then ((s.closePath p).setPortState p .feeding).stepEnds p .done
  else (s.failNew p).stepEnds p .failed

/-- 20 ms have passed since precharge began (R131). -/
def State.prechargeEnds (s : State) (p : PortId) : State :=
  match (s.portPath p).state, (s.portPath p).prechargeStart with
  | .precharge, some start => (s.waitMs start prechargeMs).endPrecharge p
  | _, _ => s

/-- PRECHARGE_END (R131). -/
def execPrechargeEnd (p : PortId) (s : State) : Host.Outcome State Fault Refusal :=
  finish (s.prechargeEnds p)

end Sys2Proof.Machine
end

