-- ==== Sys2Proof/Machine/Dispatch.lean ====
section
/-! DEFINITION. The dispatch: each command's meaning, one arm for each constructor of `Instr`. -/

namespace Sys2Proof.Machine

/-- The effect of a command on everything but the queue of waiting commands. -/
def exec (i : Instr) (s : State) : Host.Outcome State Fault Refusal :=
  match i with
  | .getStatus => Sys2Proof.Machine.execGetStatus s
  | .getPort port => Sys2Proof.Machine.execGetPort port s
  | .getOffers port => Sys2Proof.Machine.execGetOffers port s
  | .getPlan => Sys2Proof.Machine.execGetPlan s
  | .takeControl demand limit => Sys2Proof.Machine.execTakeControl demand limit s
  | .releaseControl => Sys2Proof.Machine.execReleaseControl s
  | .setDemand demand => Sys2Proof.Machine.execSetDemand demand s
  | .setLimit limit => Sys2Proof.Machine.execSetLimit limit s
  | .setPort port rank derate mode => Sys2Proof.Machine.execSetPort port rank derate mode s
  | .portEnable port => Sys2Proof.Machine.execPortEnable port s
  | .portDisable port => Sys2Proof.Machine.execPortDisable port s
  | .portRestart port => Sys2Proof.Machine.execPortRestart port s
  | .setMask masks => Sys2Proof.Machine.execSetMask masks s
  | .halt => Sys2Proof.Machine.execHalt s
  | .resume => Sys2Proof.Machine.execResume s
  | .snapshot => Sys2Proof.Machine.execSnapshot s
  | .clearEnergy port => Sys2Proof.Machine.execClearEnergy port s
  | .getCapture port => Sys2Proof.Machine.execGetCapture port s
  | .getEvents => Sys2Proof.Machine.execGetEvents s
  | .clearEvents flags => Sys2Proof.Machine.execClearEvents flags s
  | .setEventMask flags => Sys2Proof.Machine.execSetEventMask flags s
  | .setSilence seconds => Sys2Proof.Machine.execSetSilence seconds s
  | .sleep wake => Sys2Proof.Machine.execSleep wake s
  | .softReset => Sys2Proof.Machine.execSoftReset s
  | .serveErrorEntry => Sys2Proof.Machine.execServeErrorEntry s
  | .hostStartByte => Sys2Proof.Machine.execHostStartByte s
  | .requestFrameComplete bytes => Sys2Proof.Machine.execRequestFrameComplete bytes s
  | .hostFrameGapTimeout => Sys2Proof.Machine.execHostFrameGapTimeout s
  | .hostFramingError => Sys2Proof.Machine.execHostFramingError s
  | .replySent => Sys2Proof.Machine.execReplySent s
  | .powerOn release => Sys2Proof.Machine.execPowerOn release s
  | .supplyLow release => Sys2Proof.Machine.execSupplyLow release s
  | .pinReset release => Sys2Proof.Machine.execPinReset release s
  | .startingEnd => Sys2Proof.Machine.execStartingEnd s
  | .silenceExpiry => Sys2Proof.Machine.execSilenceExpiry s
  | .presenceAssert p => Sys2Proof.Machine.execPresenceAssert p s
  | .presenceLoss p => Sys2Proof.Machine.execPresenceLoss p s
  | .debounceEnd p => Sys2Proof.Machine.execDebounceEnd p s
  | .detach p => Sys2Proof.Machine.execDetach p s
  | .discoveryTimeout p => Sys2Proof.Machine.execDiscoveryTimeout p s
  | .coolDownEnd p => Sys2Proof.Machine.execCoolDownEnd p s
  | .cleanRunEnd p => Sys2Proof.Machine.execCleanRunEnd p s
  | .offers p frame => Sys2Proof.Machine.execOffers p frame s
  | .grant p frame => Sys2Proof.Machine.execGrant p frame s
  | .deny p frame => Sys2Proof.Machine.execDeny p frame s
  | .ready p frame => Sys2Proof.Machine.execReady p frame s
  | .rating p frame => Sys2Proof.Machine.execRating p frame s
  | .dialogueFrameReject p frame => Sys2Proof.Machine.execDialogueFrameReject p frame s
  | .lineGapTimeout p => Sys2Proof.Machine.execLineGapTimeout p s
  | .breakReceived p => Sys2Proof.Machine.execBreakReceived p s
  | .startOfFrameReport p => Sys2Proof.Machine.execStartOfFrameReport p s
  | .transmitStart p => Sys2Proof.Machine.execTransmitStart p s
  | .collision p => Sys2Proof.Machine.execCollision p s
  | .backoffRetry p => Sys2Proof.Machine.execBackoffRetry p s
  | .frameSent p => Sys2Proof.Machine.execFrameSent p s
  | .breakRelease p => Sys2Proof.Machine.execBreakRelease p s
  | .queryWaitExpiry p => Sys2Proof.Machine.execQueryWaitExpiry p s
  | .claimWaitExpiry p => Sys2Proof.Machine.execClaimWaitExpiry p s
  | .readyTimeout p => Sys2Proof.Machine.execReadyTimeout p s
  | .settleTimeout p => Sys2Proof.Machine.execSettleTimeout p s
  | .resyncExpiry p => Sys2Proof.Machine.execResyncExpiry p s
  | .windowExpiry p => Sys2Proof.Machine.execWindowExpiry p s
  | .prechargeEnd p => Sys2Proof.Machine.execPrechargeEnd p s
  | .sample p voltage current => Sys2Proof.Machine.execSample p voltage current s
  | .railLowAssert => Sys2Proof.Machine.execRailLowAssert s
  | .railLowClear => Sys2Proof.Machine.execRailLowClear s
  | .batteryChange present => Sys2Proof.Machine.execBatteryChange present s
  | .take => Sys2Proof.Machine.execTake s
  | .syncByteTaken p => Sys2Proof.Machine.execSyncByteTaken p s
  | .lineFramingError p => Sys2Proof.Machine.execLineFramingError p s
  | .resetCauseEnd cause board => Sys2Proof.Machine.execResetCauseEnd cause board s

end Sys2Proof.Machine
end

