-- ==== Sys2Proof/WellFormed.lean ====
section
/-! DEFINITION. Which commands are well formed: a frame row carries a frame of its own kind, a request-frame row
a complete frame, and a reset a board whose corrections lie in their ranges.  And the request that a
request command spells on the host link. -/

namespace Sys2Proof

/-- The message kinds, as the rows of the table name them. -/
def Message.isOffers : Message → Bool
  | .offers _ _ _ => true
  | .grant _ _ _ | .deny _ _ | .ready _ | .rating _ _ => false

/-- Is the message a GRANT? -/
def Message.isGrant : Message → Bool
  | .grant _ _ _ => true
  | .offers _ _ _ | .deny _ _ | .ready _ | .rating _ _ => false

/-- Is the message a DENY? -/
def Message.isDeny : Message → Bool
  | .deny _ _ => true
  | .offers _ _ _ | .grant _ _ _ | .ready _ | .rating _ _ => false

/-- Is the message a READY? -/
def Message.isReady : Message → Bool
  | .ready _ => true
  | .offers _ _ _ | .grant _ _ _ | .deny _ _ | .rating _ _ => false

/-- Is the message a RATING? -/
def Message.isRating : Message → Bool
  | .rating _ _ => true
  | .offers _ _ _ | .grant _ _ _ | .deny _ _ | .ready _ => false

/-- A voltage correction is 0..500 mV and a current correction 0..200 mA (R163). -/
def PortTrim.inRange (t : PortTrim) : Bool :=
  decide (t.voltage.amount ≤ 500) && decide (t.current.amount ≤ 200)

/-- The corrections of a board that passes its check lie in their ranges (R163, R166). -/
def Board.inRange (b : Board) : Bool :=
  !b.fuseCheckPasses || PortId.all.all fun p => (b.fuse.get p).inRange

/-- Is the command well formed?  A row whose operands are bytes or a port has no ill-formed term. -/
def Instr.wellFormed : Instr → Bool
  | .offers _ frame => (readFrame frame).any Message.isOffers
  | .grant _ frame => (readFrame frame).any Message.isGrant
  | .deny _ frame => (readFrame frame).any Message.isDeny
  | .ready _ frame => (readFrame frame).any Message.isReady
  | .rating _ frame => (readFrame frame).any Message.isRating
  | .dialogueFrameReject _ frame => frameComplete frame && (readFrame frame).isNone
  | .requestFrameComplete bytes => (requestParts bytes).isSome
  | .powerOn release | .supplyLow release | .pinReset release => release.all Board.inRange
  | .resetCauseEnd _ board => board.inRange
  | .getStatus | .getPort _ | .getOffers _ | .getPlan | .takeControl _ _ | .releaseControl | .setDemand _
  | .setLimit _ | .setPort _ _ _ _ | .portEnable _ | .portDisable _ | .portRestart _ | .setMask _ | .halt
  | .resume | .snapshot | .clearEnergy _ | .getCapture _ | .getEvents | .clearEvents _ | .setEventMask _
  | .setSilence _ | .sleep _ | .softReset | .serveErrorEntry | .hostStartByte | .hostFrameGapTimeout
  | .hostFramingError | .replySent | .startingEnd | .silenceExpiry | .presenceAssert _ | .presenceLoss _
  | .debounceEnd _ | .detach _ | .discoveryTimeout _ | .coolDownEnd _ | .cleanRunEnd _ | .lineGapTimeout _
  | .breakReceived _ | .startOfFrameReport _ | .transmitStart _ | .collision _ | .backoffRetry _
  | .frameSent _ | .breakRelease _ | .queryWaitExpiry _ | .claimWaitExpiry _ | .readyTimeout _
  | .settleTimeout _ | .resyncExpiry _ | .windowExpiry _ | .prechargeEnd _ | .sample _ _ _ | .railLowAssert
  | .railLowClear | .batteryChange _ | .take | .syncByteTaken _ | .lineFramingError _ => true

/-- The request a command of the catalogue is, with its payload (R195); none for any other command. -/
def Instr.request : Instr → Option (Request × List Byte)
  | .getStatus => some (.getStatus, [])
  | .getPort port => some (.getPort, [port])
  | .getOffers port => some (.getOffers, [port])
  | .getPlan => some (.getPlan, [])
  | .takeControl demand limit => some (.takeControl, be32 demand.toNat ++ be32 limit.toNat)
  | .releaseControl => some (.releaseControl, [])
  | .setDemand demand => some (.setDemand, be32 demand.toNat)
  | .setLimit limit => some (.setLimit, be32 limit.toNat)
  | .setPort port rank derate mode => some (.setPort, [port, rank, derate, mode])
  | .portEnable port => some (.portEnable, [port])
  | .portDisable port => some (.portDisable, [port])
  | .portRestart port => some (.portRestart, [port])
  | .setMask masks => some (.setMask, [masks])
  | .halt => some (.halt, [])
  | .resume => some (.resume, [])
  | .snapshot => some (.snapshot, [])
  | .clearEnergy port => some (.clearEnergy, [port])
  | .getCapture port => some (.getCapture, [port])
  | .getEvents => some (.getEvents, [])
  | .clearEvents flags => some (.clearEvents, be32 flags.toNat)
  | .setEventMask flags => some (.setEventMask, be32 flags.toNat)
  | .setSilence seconds => some (.setSilence, [seconds])
  | .sleep wake => some (.sleep, [wake])
  | .softReset => some (.softReset, [])
  | .serveErrorEntry | .hostStartByte | .requestFrameComplete _ | .hostFrameGapTimeout
  | .hostFramingError | .replySent | .powerOn _ | .supplyLow _ | .pinReset _ | .startingEnd | .silenceExpiry
  | .presenceAssert _ | .presenceLoss _ | .debounceEnd _ | .detach _ | .discoveryTimeout _ | .coolDownEnd _
  | .cleanRunEnd _ | .offers _ _ | .grant _ _ | .deny _ _ | .ready _ _ | .rating _ _
  | .dialogueFrameReject _ _ | .lineGapTimeout _ | .breakReceived _ | .startOfFrameReport _
  | .transmitStart _ | .collision _ | .backoffRetry _ | .frameSent _ | .breakRelease _ | .queryWaitExpiry _
  | .claimWaitExpiry _ | .readyTimeout _ | .settleTimeout _ | .resyncExpiry _ | .windowExpiry _
  | .prechargeEnd _ | .sample _ _ _ | .railLowAssert | .railLowClear | .batteryChange _ | .take
  | .syncByteTaken _ | .lineFramingError _ | .resetCauseEnd _ _ => none

end Sys2Proof
end

