-- ==== Sys2Proof/Safety.lean ====
section
/-! DEFINITION. The terms in which claims speak: a request's turn and its reply, the laws that every step keeps, the tests of an
offer and of a contract, what may be taken and what preempts, what the SOFT reset does to a port, and the stages of a plan. -/

namespace Sys2Proof.Machine

/-! ### Host requests -/

/-- The request stands at the head of the queue, `rest` behind it, and the server is free (R184). -/
def State.turn (s : State) (r : Request) (payload : List Byte) (rest : List QueueEntry) : Prop :=
  s.mode.power = .active ∧ s.host.reply = none ∧ s.host.queue = goodEntry r payload :: rest

/-- The state with the head entry gone and a reply in progress (R184, R185). -/
def State.replied (s : State) (rest : List QueueEntry) (r : Request) (status : Status)
    (payload : List Byte) : State :=
  { s with host := { s.host with queue := rest, reply := some ⟨some r.code, status, payload⟩ } }

/-- The state with the head entry gone from the queue. -/
def State.dequeued (s : State) (rest : List QueueEntry) : State :=
  { s with host := { s.host with queue := rest } }

/-- The number that `n` bytes of a payload spell, the first of them byte `first` (chapter 11). -/
def numberAt (bs : List Byte) (first n : Nat) : Nat := readBE ((bs.drop first).take n)

/-- The byte of a listed entry: level in bits 1..0, origin in bits 6..4, masked in bit 7 (R196). -/
def listedByte (e : PendingEntry) (masked : Bool) : Byte :=
  let origin := match e.origin with
    | .whole => 0
    | .port p => p.number
  byte (e.level.number + origin * 16 + if masked then 128 else 0)

/-- An offer that the fields of R194 can carry. -/
def Sendable : SentOffer → Prop
  | .fixed v i => v % 50 = 0 ∧ v / 50 < 1024 ∧ i % 10 = 0 ∧ i / 10 < 1024
  | .range lo hi w =>
    lo % 50 = 0 ∧ lo / 50 < 1024 ∧ hi % 50 = 0 ∧ hi / 50 < 1024 ∧ w % 250 = 0 ∧ w / 250 < 1024

/-! ### The lines -/

/-- The status output, the ready line and the attention line are at the levels their rules give (R129,
R183, R191). -/
def State.LinesFollow (s : State) : Prop :=
  s.path.statusOutput = s.statusLevel ∧ s.host.readyLine = s.readyLevel ∧
    s.host.attentionLine = s.attentionLevel

/-! ### Laws -/

/-- A meter's ranges (R146, R150, R154, R158). -/
def Meter.Lawful (m : Meter) : Prop :=
  m.fine < 3600000 ∧ m.whole < 4294967296 ∧ m.excess ≤ 65535 ∧ m.droopRun ≤ 10

/-- Every meter is in its ranges. -/
def State.MetersLawful (s : State) : Prop := ∀ p, (s.meter p).Lawful

/-- A port record's ranges (R69, R115). -/
def PortUnit.Lawful (u : PortUnit) : Prop :=
  u.restarts ≤ 3 ∧ u.trips ≤ 3 ∧ u.rank ≤ 3 ∧ 25 ≤ u.derate ∧ u.derate ≤ 100 ∧ u.line.collisions ≤ 2

/-- Every port record is in its ranges. -/
def State.PortsLawful (s : State) : Prop := ∀ p, (s.unit p).Lawful

/-- An entry that is GOOD carries its kind and a payload of the length R195 gives (R181). -/
def EntryLawful (e : QueueEntry) : Prop :=
  ∀ r, e.verdict = .good r → e.kind = some r.code ∧ e.payload.length = r.length

/-- The inbound queue holds at most four entries, each as R181 forms it (R182). -/
def State.QueueLawful (s : State) : Prop :=
  s.host.queue.length ≤ 4 ∧ ∀ e ∈ s.host.queue, EntryLawful e

/-- What AUTONOMOUS authority holds (R64, R169, R173). -/
def State.Autonomous (s : State) : Prop :=
  s.mode.demand = s.classPower ∧ s.mode.limit = s.classPower ∧ s.arb.gainMasked = false ∧
    s.arb.changeMasked = false ∧ s.arb.halted = false ∧ s.mode.silenceElapsed = none

/-- The Policy Record's ranges, what AUTONOMOUS authority and STARTING hold, and when a wake set is present
(R163 to R165, R169, R170). -/
def State.PolicyLawful (s : State) : Prop :=
  s.mode.demand ≤ 200000 ∧ 5000 ≤ s.mode.limit ∧ s.mode.limit ≤ s.classPower ∧
    s.mode.silenceTimeout ≤ 60 ∧ (s.mode.authority = .autonomous → s.Autonomous) ∧
    (s.mode.power = .starting → s.mode.authority = .autonomous ∧ s.host.reply = none) ∧
    (s.held = true → s.mode.power = .starting) ∧
    (s.mode.wakeSet.isSome ↔ s.mode.power = .dormant)

/-- A voltage in 50 mV steps and a current in 10 mA steps, where they are present (R2, R7, R9). -/
def OnGrid (vop current : Option Nat) : Prop := (∀ v ∈ vop, v % 50 = 0) ∧ ∀ c ∈ current, c % 10 = 0

/-- An offer as sent in its steps (R2). -/
def SentOnGrid : Sent → Prop
  | .basic => True
  | .offer (.fixed v i) => v % 50 = 0 ∧ i % 10 = 0
  | .offer (.range lo hi _) => lo % 50 = 0 ∧ hi % 50 = 0

/-- A port's table, cable record, contract and exchange in their steps. -/
def PortUnit.OnGrid (u : PortUnit) : Prop :=
  (∀ e ∈ u.table.entries, Machine.OnGrid e.vop e.clampedCurrent ∧ SentOnGrid e.sent) ∧
    (∀ c ∈ u.cable, c.current % 10 = 0 ∧ c.voltage % 50 = 0) ∧
    (∀ k ∈ u.contract, Machine.OnGrid (some k.vop) (some k.current) ∧
      ∀ c ∈ k.change, Machine.OnGrid (some c.vop) (some c.current)) ∧
    match u.exchange with
    | some (.claim _ _ current vop _ _ _) => Machine.OnGrid (some vop) (some current)
    | _ => True

/-- Every voltage stands in 50 mV steps and every current that reaches a draw limit in 10 mA steps: in the tables, the
cable records, the contracts and their pending changes, the claims, the plan in service, the ceilings and the draw
limits (R2, R5, R7, R9, R24, R128). -/
def State.GridLawful (s : State) : Prop :=
  (∀ p, (s.unit p).OnGrid) ∧ (∀ p, OnGrid none (s.portPath p).ceiling) ∧
    s.path.a.draw % 10 = 0 ∧ s.path.b.draw % 10 = 0 ∧
    ∀ r ∈ s.arb.inService, ∀ x ∈ r.plan.steps, OnGrid x.vop (some x.current)

/-- STARTING, with every block at the values a hard reset leaves (R165). -/
def State.InStarting (s : State) : Prop :=
  s.mode.power = .starting ∧ s.mode.authority = .autonomous ∧ s.mode.silenceElapsed = none ∧
    s.arb = .reset ∧ s.units = unitsReset s.mode.straps ∧ s.path = .reset ∧
    s.prot.railAsserted = none ∧ (∀ p, s.meter p = .reset ⟨(s.meter p).whole, (s.meter p).fine⟩) ∧
    s.host = .reset

/-- The commands that begin or end STARTING, or hold the part in reset (R164, R168). -/
def StartsOrResets (i : Instr) : Prop :=
  (∃ r, i = .powerOn r ∨ i = .supplyLow r ∨ i = .pinReset r) ∨ (∃ k b, i = .resetCauseEnd k b) ∨
    i = .startingEnd

/-! ### Paths and exchanges -/

/-- An exchange is outstanding only in its own states: a QUERY in DISCOVER, a CLAIM in CLAIMING, a READY or SETTLE wait in
SWITCHING (R92). -/
def PortUnit.ExchangeLawful (u : PortUnit) : Prop :=
  match u.exchange with
  | some (.query _ _) => u.state = .discover
  | some (.claim _ _ _ _ _ _ _) => u.state = .claiming
  | some (.ready _ _) | some (.settle _ _) => u.state = .switching
  | none => True

/-- Each channel is bound to at most one port and each port to at most one channel; a path is other than OPEN exactly
while its port is bound, and only while the port holds a contract (R129); a path in PRECHARGE belongs to a port in
SWITCHING with no exchange (R131), an exchange is outstanding only in its own states (R92), and through STARTING, which
a held part is in, every port is OFF with nothing outstanding and no reply is in progress (R164, R165). -/
def State.PathsLawful (s : State) : Prop :=
  (s.held = true → s.mode.power = .starting) ∧ (s.mode.power = .starting → s.host.reply = none) ∧
    (s.path.a.bound ≠ none → s.path.a.bound ≠ s.path.b.bound) ∧
    ∀ p, ((s.portPath p).state ≠ .openPath ↔ (s.channelOf p).isSome = true) ∧
      ((s.portPath p).state ≠ .openPath → (s.unit p).contract.isSome = true) ∧
      ((s.portPath p).state = .precharge → (s.unit p).state = .switching ∧ (s.unit p).exchange = none) ∧
      (s.unit p).ExchangeLawful ∧
      (s.mode.power = .starting →
        (s.unit p).state = .off ∧ (s.unit p).exchange = none ∧ (s.unit p).contract = none)

/-! ### Frames of the dialogue line -/

/-- The frame is delivered, with message `m`, to a port that acts on frames (R94, R118 to R120). -/
def State.delivers (s : State) (p : PortId) (frame : List Byte) (m : Message) : Prop :=
  readFrame frame = some m ∧ (s.unit p).listens = true

/-- The command that stands for the reception of a complete frame (R93, R120). -/
def receptionOf (p : PortId) (frame : List Byte) : Instr :=
  match readFrame frame with
  | some (.offers _ _ _) => .offers p frame
  | some (.grant _ _ _) => .grant p frame
  | some (.deny _ _) => .deny p frame
  | some (.ready _) => .ready p frame
  | some (.rating _ _) => .rating p frame
  | none => .dialogueFrameReject p frame

/-! ### Offers -/

/-- `e` is the entry of the offer `o` against a cable's max voltage: its tests of R4 and R5, and its effective values of R2. -/
def Judged (cable : Nat) (o : SentOffer) (e : Entry) : Prop :=
  e.sent = .offer o ∧ match o with
  | .fixed v i =>
    e.clampedCurrent = some (min i 5000) ∧ e.clampedPower = none ∧
      (v < 5000 ∨ 20000 < v ∨ cable < v → e.eligibility = .ineligible ∧ e.vop = none) ∧
      (5000 ≤ v → v ≤ 20000 → v ≤ cable → e.vop = some v ∧
        (5000 < i → e.eligibility = .clamped) ∧ (i ≤ 5000 → e.eligibility = .eligible))
  | .range lo hi w =>
    let bound := min 20000 cable
    e.clampedCurrent = none ∧ e.clampedPower = some (min w 100000) ∧
      (hi < lo ∨ hi < 5000 ∨ bound < max lo 5000 → e.eligibility = .ineligible ∧ e.vop = none) ∧
      (lo ≤ hi → 5000 ≤ hi → max lo 5000 ≤ bound → e.vop = some (min hi bound) ∧
        (bound < hi ∨ 100000 < w → e.eligibility = .clamped) ∧
        (hi ≤ bound → w ≤ 100000 → e.eligibility = .eligible))

/-- `e` is the entry `old` computed again against a cable's max voltage (R8); the Basic offer stays as R6 gives it. -/
def Rejudged (cable : Nat) (old e : Entry) : Prop :=
  (old.sent = .basic → e = ⟨.basic, .eligible, some 5000, some 900, none⟩) ∧
    ∀ o, old.sent = .offer o → Judged cable o e

/-- The table's entry at the contract's index keeps the contract VALID (R17). -/
def OfferTable.Validates (t : OfferTable) (k : Contract) : Prop :=
  match k.kind with
  | .basic => True
  | .fixed => ∃ e v i c, t.entries[k.index]? = some e ∧ e.sent = .offer (.fixed v i) ∧
      e.eligibility ≠ .ineligible ∧ e.vop = some k.vop ∧ e.clampedCurrent = some c ∧ k.current ≤ c
  | .range => ∃ e lo hi w c, t.entries[k.index]? = some e ∧ e.sent = .offer (.range lo hi w) ∧
      e.eligibility ≠ .ineligible ∧ e.vop = some k.vop ∧ e.clampedPower = some c ∧ k.power ≤ c

/-! ### The outstanding exchange -/

/-- Is a claim outstanding? -/
def PortUnit.claims (u : PortUnit) : Bool :=
  match u.exchange with
  | some (.claim _ _ _ _ _ _ _) => true
  | some (.query _ _) | some (.ready _ _) | some (.settle _ _) | none => false

/-- The attempt of the outstanding claim and when its wait began (R100). -/
def PortUnit.claimAttempt (u : PortUnit) : Option (Nat × Time) :=
  match u.exchange with
  | some (.claim _ _ _ _ _ n start) => some (n, start)
  | some (.query _ _) | some (.ready _ _) | some (.settle _ _) | none => none

/-- When the outstanding READY wait began (R106). -/
def PortUnit.readyStart (u : PortUnit) : Option Time :=
  match u.exchange with
  | some (.ready _ start) => some start
  | some (.query _ _) | some (.claim _ _ _ _ _ _ _) | some (.settle _ _) | none => none

/-- When the outstanding SETTLE wait began (R107). -/
def PortUnit.settleStart (u : PortUnit) : Option Time :=
  match u.exchange with
  | some (.settle _ start) => some start
  | some (.query _ _) | some (.claim _ _ _ _ _ _ _) | some (.ready _ _) | none => none

/-- The attempt of the outstanding QUERY (R95). -/
def PortUnit.queryAttempt (u : PortUnit) : Option Nat :=
  match u.exchange with
  | some (.query n _) => some n
  | some (.claim _ _ _ _ _ _ _) | some (.ready _ _) | some (.settle _ _) | none => none

/-- The attempt of a QUERY that waits for the part's break to end (R95). -/
def PortUnit.queryBehindBreak (u : PortUnit) : Option Nat :=
  match u.exchange with
  | some (.query n none) => some n
  | some (.query _ (some _)) | some (.claim _ _ _ _ _ _ _) | some (.ready _ _) | some (.settle _ _)
  | none => none

/-! ### Frames -/

/-- Nothing of the other ports is moved: their records, paths and meters. -/
def KeepsOthers (s t : State) (p : PortId) : Prop :=
  ∀ q, q ≠ p → t.unit q = s.unit q ∧ t.portPath q = s.portPath q ∧ t.meter q = s.meter q

/-- Mode Control is as it was, but for the silence that time counts. -/
def KeepsMode (s t : State) : Prop :=
  t.mode = { s.mode with silenceElapsed := t.mode.silenceElapsed }

/-- The Path Controller, the meters and the Arbiter are as they were. -/
def KeepsPower (s t : State) : Prop :=
  t.path.port = s.path.port ∧ t.path.a = s.path.a ∧ t.path.b = s.path.b ∧
    t.path.batteryPresent = s.path.batteryPresent ∧ t.prot = s.prot ∧ t.arb = s.arb

/-- The Host Link Unit is as it was, but for its flags and its two lines. -/
def KeepsLink (s t : State) : Prop :=
  t.host.reception = s.host.reception ∧ t.host.lastByteEnd = s.host.lastByteEnd ∧
    t.host.queue = s.host.queue ∧ t.host.reply = s.host.reply ∧ t.host.mask = s.host.mask

/-! ### Pending entries -/

/-- No mask covers the level (R45): GAIN and CHANGE alone have one. -/
def State.Unmasked (s : State) (l : Level) : Prop :=
  (l = .gain → s.arb.gainMasked = false) ∧ (l = .change → s.arb.changeMasked = false)

/-- The entry may be taken: it is pending and its level unmasked (R46). -/
def State.MayServe (s : State) (e : PendingEntry) : Prop := s.arb.pending.has e = true ∧ s.Unmasked e.level

/-- The entry `e` is taken before `x` (R47): by level, GLOBAL before any port, by rank, which is read as 1 in AUTONOMOUS
authority, and by port number. -/
def State.TakenBefore (s : State) (e x : PendingEntry) : Prop :=
  let rank (p : PortId) := if s.mode.authority = .autonomous then 1 else (s.unit p).rank
  x.level.number < e.level.number ∨ x.level = e.level ∧ match e.origin, x.origin with
    | .whole, .port _ => True
    | .whole, .whole => False
    | .port _, .whole => False
    | .port p, .port q => rank p < rank q ∨ rank p = rank q ∧ p.number < q.number

/-- The entry that a take takes: it may be taken, and before every other that may (R47). -/
def State.NextTaken (s : State) (e : PendingEntry) : Prop :=
  s.MayServe e ∧ ∀ x, s.MayServe x → x ≠ e → s.TakenBefore e x

/-- The entry preempts the rebalance: it may be taken, and its level is above the level taken (R59). -/
def State.Preempts (s : State) (r : InService) (e : PendingEntry) : Prop :=
  s.MayServe e ∧ r.taken.level.number < e.level.number

/-- The entries of `l` alone have been posted between `s` and `u`: they are pending (R44), and the covered list of a rebalance
in service has lost each of them that it held, and nothing else (R50). -/
def Posted (s u : State) (l : List PendingEntry) : Prop :=
  (∀ x, u.arb.pending.has x = (decide (x ∈ l) || s.arb.pending.has x)) ∧
    ∀ r, s.arb.inService = some r → ∃ r', u.arb.inService = some r' ∧
      ∀ x, r'.covered.has x = (r.covered.has x && !decide (x ∈ l))

/-! ### Steps -/

/-- The rebalance `r` is in service, its step in flight is on the port, and that step is the last of its plan. -/
def State.LastStepOn (s : State) (p : PortId) (r : InService) : Prop :=
  s.arb.inService = some r ∧ r.inFlight = true ∧ r.next + 1 = r.plan.steps.length ∧
    r.results[r.next]? = some .inFlight ∧ ∃ x, r.step = some x ∧ x.port = p

/-- The rebalance `r` has completed with its last step's result (R56 to R58). -/
def State.Completed (t : State) (r : InService) (result : StepResult) : Prop :=
  t.arb.inService = none ∧ t.host.flags.rebalance = true ∧
    ∃ x, t.arb.lastOutcome = some ⟨r.taken, x, r.stepsDone + 1, t.clock.base⟩ ∧
      (result ≠ .done → x = .partly ∧ t.arb.pending.has ⟨.change, .whole⟩ = true)

/-- A line fault of a port that spoke, whose contract, if any, was no sole feed, before the Arbiter goes on: the
contract has ended, a restart is counted, and the port is in DISCOVER with a QUERY outstanding, or, at the third restart
in a row, legacy and in STANDBY (R76, R83, R84). -/
def LineFaulted (s t : State) (p : PortId) : Prop :=
  let n := min 3 ((s.unit p).restarts + 1)
  let lost := (s.unit p).contract.isSome && (s.portPath p).state == .closed
  let posted := if lost then s.arb.pending.put ⟨.loss, .port p⟩ true else s.arb.pending
  (t.unit p).restarts = n ∧ (t.unit p).legacy = decide (n = 3) ∧ (t.unit p).contract = none ∧
    (t.unit p).state = (if n = 3 then .standby else .discover) ∧
    (t.unit p).exchange = (if n = 3 then none
      else some (.query 1 (if (t.unit p).line.isBreaking then none else some t.clock.base))) ∧
    (t.unit p).table = discoverTable ∧ (t.unit p).cable = none ∧ (t.unit p).denialCap = none ∧
    (t.unit p).droopCap = none ∧ (t.unit p).resyncStart = none ∧ (t.unit p).trips = (s.unit p).trips ∧
    ((s.unit p).contract.isSome = true → (t.portPath p).state = .openPath ∧ (t.meter p).droopRun = 0 ∧
      (t.meter p).excess = 0 ∧ t.host.flags.get (.port p .contract) = true) ∧
    (n = 3 → t.host.flags.get (.port p .legacy) = true) ∧
    t.arb.pending = (if n = 3 then posted.put ⟨.gain, .port p⟩ true else posted)

/-- The draw limit that a demotion to Basic leaves (R13, R144): min(900, Ider) on the port's channel, Ider from the offer
current min(900, Icable, 5000) at the port's derate; the other channel stays. -/
def DemotedDraw (s u : State) (p : PortId) : Prop :=
  let offer := min 900 (min (((s.unit p).cable.map CableRecord.current).getD 3000) 5000)
  (u.portPath p).offerCurrent = some offer ∧ ∀ c, s.channelOf p = some c → u.chan c.other = s.chan c.other ∧
    u.chan c = ⟨(s.chan c).bound, min 900 (offer * (s.unit p).derate / 1000 * 10)⟩

/-- A line fault of a port that spoke, whose path was a sole feed, before the Arbiter goes on: the contract is demoted to Basic
with its path CLOSED, LOSS is posted, and a restart is counted; at the third in a row the port is legacy and in FEEDING (R13,
R76, R83, R84, R144). -/
def LineFaultDemoted (s t : State) (p : PortId) : Prop :=
  let n := min 3 ((s.unit p).restarts + 1)
  let posted := s.arb.pending.put ⟨.loss, .port p⟩ true
  (t.unit p).restarts = n ∧ (t.unit p).legacy = decide (n = 3) ∧
    (t.unit p).contract = some ((s.unit p).basicTerms t.clock.base) ∧ (t.portPath p).state = .closed ∧
    DemotedDraw s t p ∧
    (t.meter p).droopRun =
      (if (s.unit p).contract.map Contract.vop = some 5000 then (s.meter p).droopRun else 0) ∧
    (t.unit p).state = (if n = 3 then .feeding else .discover) ∧
    (t.unit p).exchange = (if n = 3 then none
      else some (.query 1 (if (t.unit p).line.isBreaking then none else some t.clock.base))) ∧
    (t.unit p).table = discoverTable ∧ (t.unit p).cable = none ∧ (t.unit p).denialCap = none ∧
    (t.unit p).droopCap = none ∧ (t.unit p).resyncStart = none ∧
    t.host.flags.get (.port p .contract) = true ∧
    t.arb.pending = (if n = 3 then posted.put ⟨.gain, .port p⟩ true else posted)

/-! ### A step in flight, at any place of its plan -/

/-- The in-service record of `u`, apart from the covered entries that postings remove, which R50 gives. -/
def withCoveredOf (u : State) (r : InService) : InService :=
  { r with covered := (u.arb.inService.map InService.covered).getD r.covered }

/-- The record in service is as it was: a step in flight stays in flight. -/
def KeepsService (s u : State) : Prop := u.arb.inService = s.arb.inService.map (withCoveredOf u)

/-- The step that was in flight on port `p`, if one was, has `result` in `u`: it is in flight no more and the next step
index is past it (R49, R56). -/
def StepEnded (s u : State) (p : PortId) (result : StepResult) : Prop :=
  u.arb.inService = s.arb.inService.map fun r => withCoveredOf u (if s.stepOn p then
    { r with results := r.results.set r.next result, inFlight := false, next := r.next + 1 } else r)

/-- An event takes `s` to `t`: where a step was in flight on port `p` it has ended with `result` in `u`, and `t` is what the
Arbiter makes of `u` (R56, Obligations.TakesServeTheHighestLevel); where none was, `t` is `u`. -/
def EndsStep (s u t : State) (p : PortId) (result : StepResult) : Prop :=
  StepEnded s u p result ∧ t = (if s.stepOn p then u.act else u).refresh

/-- The denial cap that a FAILED step writes: the committed power of the contract that is left, 0 for none, with the table's
generation (R21, R54). -/
def CapWritten (s u : State) (p : PortId) : Prop :=
  s.stepOn p = true → (u.unit p).denialCap =
    some ⟨((u.unit p).contract.map Contract.power).getD 0, (u.unit p).table.gen⟩

/-- Port `p` has lost its terms (R12 to R15, R142 to R144): the contract has ended, its path is OPEN, its channel unbound and
its port in STANDBY; that of a sole feed is demoted to Basic on its CLOSED path, with Basic claimed where the port speaks. -/
def LostTerms (s u : State) (p : PortId) : Prop :=
  let current := min 900 (((s.unit p).cable.map CableRecord.current).getD 3000)
  let basic : Contract :=
    ⟨0, .basic, (s.unit p).table.gen, 5000, current, 5000 * current / 1000, u.clock.base, none, none⟩
  (s.soleFeed p = false → (u.unit p).contract = none ∧ (u.unit p).state = .standby ∧ (u.unit p).exchange = none ∧
    (u.portPath p).state = .openPath ∧ (u.meter p).droopRun = 0 ∧ (u.meter p).excess = 0 ∧
    ∀ c, s.channelOf p = some c → u.chan c = ⟨none, 0⟩) ∧
  (s.soleFeed p = true → (u.unit p).contract = some basic ∧ (u.portPath p).state = .closed ∧
    (u.portPath p).ceiling = none ∧ DemotedDraw s u p ∧ (u.meter p).excess = (s.meter p).excess ∧
    (∀ k, (s.unit p).contract = some k →
      (u.meter p).droopRun = if k.vop = 5000 then (s.meter p).droopRun else 0) ∧
    ((s.unit p).speaks = false → (u.unit p).state = .feeding ∧ (u.unit p).exchange = none) ∧
    ((s.unit p).speaks = true → (u.unit p).state = .claiming ∧
      (u.unit p).exchange = some (.claim .ret 0 basic.current 5000 (s.unit p).table.gen 1 u.clock.base))) ∧
  (u.unit p).table = (s.unit p).table ∧ u.host.flags = s.host.flags.put (.port p .contract) true ∧
  KeepsOthers s u p ∧ KeepsMode s u ∧ KeepsLink s u

/-- A change on port `p` has failed (R12, R14, R54): the terms are lost and LOSS is posted.  The step has FAILED, with its
denial cap, and the Arbiter goes on; but where the sole feed claims Basic, the step stays in flight until that claim has
ended. -/
def ChangeFailed (s u t : State) (p : PortId) : Prop :=
  LostTerms s u p ∧ u.arb.pending = s.arb.pending.put ⟨.loss, .port p⟩ true ∧ Posted s u [⟨.loss, .port p⟩] ∧
    if s.soleFeed p && (s.unit p).speaks then KeepsService s u ∧ t = u.refresh
    else EndsStep s u t p .failed ∧ CapWritten s u p

/-- A line fault has met port `p`, which spoke, with or without a step in flight on it, which has FAILED (R83). -/
def LineFaultTaken (s u t : State) (p : PortId) : Prop :=
  EndsStep s u t p .failed ∧ KeepsOthers s u p ∧ KeepsMode s u ∧ KeepsLink s u ∧
    (s.soleFeed p = false → LineFaulted s u p) ∧
    (s.soleFeed p = true → (s.unit p).contract.isSome = true → LineFaultDemoted s u p)

/-! ### The Arbiter at a step -/

/-- The Arbiter is free to go on with step `x` of the rebalance `r`: no step is in flight, the part is not halted and no
pending entry preempts (R56). -/
def State.AtStep (s : State) (r : InService) (x : PlanStep) : Prop :=
  s.arb.inService = some r ∧ r.inFlight = false ∧ r.step = some x ∧ s.arb.halted = false ∧
    ∀ e, ¬s.Preempts r e

/-- The step at the next step index of `r` is in flight in `t` (R52). -/
def StepStarted (r : InService) (t : State) : Prop :=
  t.arb.inService = some (withCoveredOf t { r with results := r.results.set r.next .inFlight, inFlight := true })

/-- The step at the next step index of `r` has ended at its start, with `result`, in `t` (R52, R56). -/
def EndedAtStart (r : InService) (t : State) (result : StepResult) : Prop :=
  t.arb.inService = some (withCoveredOf t { r with
    results := r.results.set r.next result, inFlight := false, next := r.next + 1 })

/-! ### The entry to AUTONOMOUS -/

/-- What the entry to AUTONOMOUS writes before the Arbiter acts (R64, R171): the authority, D and L at the class, the raise where
L rose, both masks and the halted flag clear, and the silence timer stopped. -/
def State.asAutonomous (s : State) : State :=
  let m : State := { s with mode := { s.mode with
    authority := .autonomous, demand := s.classPower, limit := s.classPower, silenceElapsed := none } }
  let r := if s.mode.limit < s.classPower then m.raise else m
  { r with arb := { r.arb with gainMasked := false, changeMasked := false, halted := false } }

/-- What the Arbiter then makes of it (R63, R64): one that was halted goes on, and any other is as it was. -/
def State.afterAutonomous (s : State) : State := if s.arb.halted then s.asAutonomous.act else s.asAutonomous

/-- `u` is `s` after the entry to AUTONOMOUS, but for AUTHORITY and CHANGE GLOBAL, which come last (R171): Mode Control and the
Arbiter's flags are written, and a rebalance that does not wait stands as it was, with the draw limits of the raise; one that waited
and is preempted is abandoned (R60, R63, R64). -/
def AutonomousEntered (s u : State) : Prop :=
  u.Autonomous ∧ u.mode.authority = .autonomous ∧
    ((s.arb.halted = false ∨ ∀ r, s.arb.inService = some r → r.inFlight = true) →
      u.path = s.asAutonomous.path ∧ u.units = s.units ∧ u.arb.inService = s.arb.inService ∧
      u.arb.pending = s.arb.pending ∧ u.host.flags = s.host.flags) ∧
    (∀ r, s.arb.halted = true → s.arb.inService = some r → r.inFlight = false → r.next < r.plan.steps.length →
      (∃ e, s.arb.pending.has e = true ∧ r.taken.level.number < e.level.number) →
      u.path = s.asAutonomous.path ∧ u.units = s.units ∧ u.arb.inService = none ∧
      u.arb.pending = s.arb.pending.put r.taken true ∧
      u.arb.lastOutcome = some ⟨r.taken, .abandoned, r.stepsDone, s.clock.base⟩) ∧
    s.asAutonomous.path.port = s.path.port ∧ s.path.a.draw ≤ s.asAutonomous.path.a.draw ∧
    s.path.b.draw ≤ s.asAutonomous.path.b.draw

/-! ### Power -/

/-- A port whose exchange a plan step alone can have begun: a claim but for the return to Basic, or a READY or SETTLE wait
(R52, R101). -/
def PortUnit.awaitsStep (u : PortUnit) : Bool :=
  match u.exchange with
  | some (.claim purpose _ _ _ _ _ _) => purpose != .ret
  | some (.ready _ _) | some (.settle _ _) => true
  | some (.query _ _) | none => false

/-- A claim of a plan step, a READY or SETTLE wait and a precharge stand only while the plan's step is in flight on their
port (R52, R101, R131). -/
def State.StepsLawful (s : State) : Prop :=
  ∀ p, (s.unit p).awaitsStep = true ∨ (s.portPath p).state = .precharge → s.stepOn p = true

/-- The claim of a NEW stands on a port without a contract (R10, R51). -/
def PortUnit.NewLawful (u : PortUnit) : Prop :=
  match u.exchange with
  | some (.claim .new _ _ _ _ _ _) => u.contract = none
  | _ => True

/-- The power laws: an unbound channel draws nothing and a bound one no more than its contract's claimed current and its
port's Ider (R135); the channels' committed sum is within L (R136); a channel whose path is in PRECHARGE draws nothing
(R131); and an accumulator is below the trip threshold, and 0 with the run count while its path is OPEN (R149, R150). -/
def State.PowerLawful (s : State) : Prop :=
  s.chanPower .a + s.chanPower .b ≤ s.mode.limit ∧
    (∀ c, (s.chan c).bound = none → (s.chan c).draw = 0) ∧
    (∀ p, (s.unit p).NewLawful ∧ (s.meter p).excess < 4000 ∧
      ((s.portPath p).state = .openPath → (s.meter p).excess = 0 ∧ (s.meter p).droopRun = 0) ∧
      ∀ c, s.channelOf p = some c → (s.chan c).draw ≤ s.contractIder p ∧
        (∀ k, (s.unit p).contract = some k → (s.chan c).draw ≤ k.current) ∧
        ((s.portPath p).state = .precharge → (s.chan c).draw = 0))

/-! ### The SOFT reset -/

/-- A SOFT reset gives up the port's claim or wait and ends its contract (R91). -/
def PortUnit.SoftRestarts (u : PortUnit) : Prop := u.state = .claiming ∨ u.state = .switching

/-- At a SOFT reset that restarts port `p`, its path is a sole feed when `p`'s turn comes: every other CLOSED path belongs
to a contract that the reset has ended before (R143).  The turns go from P1 to P4, the model's choice (assumption
log 10). -/
def State.SoftSole (s : State) (p : PortId) : Prop :=
  (s.portPath p).state = .closed ∧ s.path.batteryPresent = some false ∧
    ∀ q, q ≠ p → (s.portPath q).state = .closed →
      (s.unit q).SoftRestarts ∧ (s.unit q).contract.isSome = true ∧ q.number < p.number

/-- A SOFT reset has begun port `p`'s discovery again (R74, R76, R91, R114, R127): a SMART port's line is broken by the part,
but for a legacy port in DISCOVER, and the QUERY waits for the end of the break; a port that does not speak is legacy and
goes on to STANDBY, or with a contract to FEEDING. -/
def SoftDiscovers (s t : State) (p : PortId) : Prop :=
  let u := s.unit p
  let v := t.unit p
  v = { u with
    state := if u.speaks then .discover else if v.contract.isSome then .feeding else .standby
    legacy := !u.speaks, discoveryStart := if u.speaks then some s.clock.base else none
    queryEnded := !u.speaks, exchange := if u.speaks then some (.query 1 none) else none
    table := discoverTable, cable := none, denialCap := none, droopCap := none, resyncStart := none
    contract := v.contract, cleanRunStart := v.cleanRunStart, line := v.line } ∧
  (u.mode = .smart → (u.state = .discover → u.legacy = false) → v.line.reception = .hunting ∧
    v.line.lowStart = none ∧
    v.line.transmitter = (if u.line.isBreaking then u.line.transmitter else .breaking s.clock.bit) ∧
    (u.line.held = none ∨ u.claims = true ∨ u.queryAttempt.isSome = true → v.line.held = none)) ∧
  (u.mode = .basicOnly → v.line.isBreaking = u.line.isBreaking ∧ v.line.reception = u.line.reception)

/-- Port `p` has its terms and its path as they were. -/
def KeepsTerms (s t : State) (p : PortId) : Prop :=
  (t.unit p).contract = (s.unit p).contract ∧ (t.unit p).cleanRunStart = (s.unit p).cleanRunStart ∧
    t.portPath p = s.portPath p ∧ t.meter p = s.meter p

/-- Port `p`'s contract has ended: its path is OPEN, its channel unbound and the counts of its meter are 0 (R15, R134,
R149). -/
def TermsEnded (s t : State) (p : PortId) : Prop :=
  (t.unit p).contract = none ∧ (t.unit p).cleanRunStart = none ∧ t.portPath p = ⟨.openPath, none, none, none⟩ ∧
    t.meter p = { s.meter p with excess := 0, droopRun := 0 } ∧
    ∀ c, s.channelOf p = some c → t.chan c = ⟨none, 0⟩

/-- Port `p`'s contract has been demoted to Basic: its path stays CLOSED, at a draw limit of min(900, Ider), and a moved
operating voltage has set the droop run count to 0 (R13, R144, R154). -/
def TermsDemoted (s t : State) (p : PortId) : Prop :=
  let current := min 900 (s.unit p).cableCurrent
  let offer := min 900 (min (s.unit p).cableCurrent 5000)
  let run := if (s.unit p).contract.map Contract.vop = some 5000 then (s.meter p).droopRun else 0
  (t.unit p).contract =
      some ⟨0, .basic, (s.unit p).table.gen, 5000, current, 5000 * current / 1000, s.clock.base, none, none⟩ ∧
    (t.unit p).cleanRunStart = (s.unit p).cleanRunStart ∧
    t.portPath p = { s.portPath p with offerCurrent := some offer, ceiling := none } ∧
    t.meter p = { s.meter p with droopRun := run } ∧
    ∀ c, s.channelOf p = some c →
      t.chan c = { s.chan c with draw := min 900 (offer * (s.unit p).derate / 1000 * 10) }

/-! ### The stages of a plan -/

/-- A port that takes part in a plan (R25). -/
def PortUnit.TakesPart (u : PortUnit) : Prop := u.state = .standby ∨ u.state = .feeding

/-- A port that is HELD in a plan: a fixed load (R25). -/
def PortUnit.isLoad (u : PortUnit) : Bool :=
  u.contract.isSome && [PortState.discover, .claiming, .switching, .faulted].contains u.state

/-- `f` are the figures of the eligible or clamped offer at its index: Vop, Ider and U (R26, R27). -/
def OfferFigures.Of (f : OfferFigures) (u : PortUnit) : Prop :=
  ∃ e, u.table.entries[f.index]? = some e ∧ e.eligibility ≠ .ineligible ∧ e.vop = some f.vop ∧
    let offered := match e.kind with
      | .basic => 900
      | .fixed => e.clampedCurrent.getD 0
      | .range => 5000
    let bound := f.vop * f.ider / 1000
    f.ider = min offered (min ((u.cable.map CableRecord.current).getD 3000) 5000) * u.derate / 1000 * 10 ∧
      f.usable = match e.kind with
        | .basic | .fixed => bound
        | .range => min (e.clampedPower.getD 0) bound

/-- `f` is the best offer: the largest U; among equals the lower Vop, then the lower index (R28). -/
def OfferFigures.IsBest (f : OfferFigures) (u : PortUnit) : Prop :=
  f.Of u ∧ ∀ g : OfferFigures, g.Of u → g.usable < f.usable ∨
    g.usable = f.usable ∧ (f.vop < g.vop ∨ f.vop = g.vop ∧ f.index ≤ g.index)

/-- `up` is the port figure: the best offer's U, lowered by each cap that applies, and no lower (R29). -/
def PortUnit.HasFigure (u : PortUnit) (usable up : Nat) : Prop :=
  let caps (c : Nat) : Prop :=
    u.droopCap = some c ∨ ∃ d, u.denialCap = some d ∧ d.gen = u.table.gen ∧ d.power = c
  up ≤ usable ∧ (∀ c, caps c → up ≤ c) ∧ (up = usable ∨ caps up)

/-- What the stages of a plan give each port: its best offer, Up, its allocation of Stage 5 and its action of Stage 7. -/
structure Stages where
  best : PortId → OfferFigures
  up : PortId → Nat
  share : PortId → Nat
  action : PortId → Option Action

namespace Stages

/-- A port of the order: one that takes part and has an offer, as each that takes part has (R28, R30). -/
def Competes (s : State) (p : PortId) : Prop := (s.unit p).TakesPart ∧ ∃ f : OfferFigures, f.Of (s.unit p)

/-- Port `p` stands before `q` in the order: by rank, by key, by number (R30). -/
def Before (g : Stages) (s : State) (p q : PortId) : Prop :=
  let rank (x : PortId) := if s.mode.authority = .autonomous then 1 else (s.unit x).rank
  let key (x : PortId) := if (s.unit x).state = .feeding then g.up x * 110 / 100 else g.up x
  rank p < rank q ∨ rank p = rank q ∧ (key q < key p ∨ key p = key q ∧ p.number < q.number)

/-- Port `p` stands first in the order among the ports with a property. -/
def First (g : Stages) (s : State) (f : PortId → Prop) (p : PortId) : Prop :=
  f p ∧ ∀ q, f q → q ≠ p → g.Before s p q

/-- A candidate: a port of the order whose Up is above 0 (R30). -/
def Candidate (g : Stages) (s : State) (p : PortId) : Prop := Competes s p ∧ 0 < g.up p

/-- The allocations of T to at most as many candidates as there are slots (R31, R32). -/
def Shared (g : Stages) (s : State) : Prop :=
  let power := min s.mode.demand s.mode.limit -
    ((PortId.all.filter fun p => (s.unit p).isLoad).map fun p =>
      ((s.unit p).contract.map Contract.power).getD 0).sum
  let slots := 2 - ([s.path.a, s.path.b].filter fun c => c.bound.any fun p => (s.unit p).isLoad).length
  (∀ p, ¬g.Candidate s p → g.share p = 0) ∧
  ∀ p, g.First s (g.Candidate s) p →
    g.share p = (if slots = 0 then 0 else min power (g.up p)) ∧
    ∀ q, g.First s (fun x => g.Candidate s x ∧ x ≠ p) q →
      g.share q = (if slots = 2 ∧ 5000 ≤ power - g.share p then min (power - g.share p) (g.up q) else 0) ∧
      ∀ r, g.Candidate s r → r ≠ p → r ≠ q → g.share r = 0

/-- The claim current: 0 where it would be below 100 mA (R33). -/
def current (g : Stages) (p : PortId) : Nat :=
  let ic := min (g.best p).ider (g.share p * 1000 / (g.best p).vop / 10 * 10)
  if ic < 100 then 0 else ic

/-- The target committed power (R33). -/
def power (g : Stages) (p : PortId) : Nat := (g.best p).vop * g.current p / 1000

/-- Does the target have the contract's offer index, generation, Vop and claimed current (R34)? -/
def Same (g : Stages) (s : State) (p : PortId) (k : Contract) : Prop :=
  k.index = (g.best p).index ∧ k.gen = (s.unit p).table.gen ∧ k.vop = (g.best p).vop ∧ k.current = g.current p

/-- The classification of a port of the order (R34). -/
def Classified (g : Stages) (s : State) (p : PortId) : Prop :=
  ((s.unit p).contract = none → g.action p = if g.power p = 0 then none else some .new) ∧
  ∀ k, (s.unit p).contract = some k →
    (g.power p = 0 → g.action p = some .fin) ∧
    (0 < g.power p → g.power p < k.power → g.action p = some .lower) ∧
    (k.power < g.power p → g.action p = some .raise) ∧
    (0 < g.power p → g.power p = k.power → ¬g.Same s p k → g.action p = some .restate) ∧
    (0 < g.power p → g.power p = k.power → g.Same s p k → g.action p = none)

/-- Stages 1 to 7 (R25 to R35): the ports of the order have their best offers, figures, allocations and actions; the other
ports have no action. -/
def Computed (g : Stages) (s : State) : Prop :=
  g.Shared s ∧ ∀ p,
    (Competes s p → (g.best p).IsBest (s.unit p) ∧ (s.unit p).HasFigure (g.best p).usable (g.up p) ∧
      g.Classified s p) ∧
    (¬Competes s p → g.action p = none)

/-- The step of an action (R24). -/
def stepOf (g : Stages) (s : State) (p : PortId) (a : Action) : PlanStep :=
  let gen := (s.unit p).table.gen
  if a = .fin then ⟨p, .fin, none, gen, none, 0, 0⟩
  else ⟨p, a, some (g.best p).index, gen, some (g.best p).vop, g.current p, g.power p⟩

/-- A reduce-only plan takes a NEW or a RAISE out (R36). -/
def Removed (g : Stages) (reduces : Bool) (p : PortId) : Prop :=
  reduces = true ∧ (g.action p = some .new ∨ g.action p = some .raise)

/-- A NEW that R36 leaves. -/
def NewLeft (g : Stages) (reduces : Bool) (p : PortId) : Prop := g.action p = some .new ∧ ¬g.Removed reduces p

/-- A gap in feed: the battery is absent, a port that takes part is bound, and every bound port has an END (R37). -/
def Gap (g : Stages) (s : State) : Prop :=
  s.path.batteryPresent = some false ∧ (∃ p, s.isBound p = true ∧ (s.unit p).TakesPart) ∧
    ∀ p, s.isBound p = true → g.action p = some .fin

/-- Some channel is unbound. -/
def Bridges (s : State) : Prop := s.path.a.bound = none ∨ s.path.b.bound = none

/-- The NEW that is moved ahead of the ENDs (R37). -/
def Ahead (g : Stages) (s : State) (reduces : Bool) (p : PortId) : Prop :=
  g.Gap s ∧ Bridges s ∧ g.First s (g.NewLeft reduces) p

/-- A gap that no channel can bridge defers the rest of the change (R38). -/
def Defers (g : Stages) (s : State) (reduces : Bool) : Prop :=
  g.Gap s ∧ ¬Bridges s ∧ ∃ p, g.NewLeft reduces p

/-- The port whose END is removed: the bound port earliest in the order, at a gap that is not bridged (R38, R39). -/
def Kept (g : Stages) (s : State) (reduces : Bool) (p : PortId) : Prop :=
  g.Gap s ∧ g.First s (fun x => s.isBound x = true ∧ Competes s x) p ∧
    (¬Bridges s ∨ ∀ q, ¬g.NewLeft reduces q)

/-- A port whose step is withheld (R36, R38). -/
def Withheld (g : Stages) (s : State) (reduces : Bool) (p : PortId) : Prop :=
  g.Removed reduces p ∨ g.Defers s reduces ∧ g.NewLeft reduces p ∧ ¬g.First s (g.NewLeft reduces) p

/-- A step's position (R40); among equals the ports go in number order. -/
def Position (g : Stages) (s : State) (reduces : Bool) (x : PlanStep) (n : Nat) : Prop :=
  (g.Ahead s reduces x.port → n = 1) ∧
  (¬g.Ahead s reduces x.port → n = match x.action with
    | .fin => 2
    | .lower | .restate => 3
    | .new => 4
    | .raise => 5)

/-- A port's target row (R24, R34, R36, R38).  A WITHHELD row carries the figures of Stage 6, the model's choice
(assumption log 21). -/
def Row (g : Stages) (s : State) (reduces : Bool) (p : PortId) (row : TargetRow) : Prop :=
  ((s.unit p).TakesPart ↔ row.part = .takesPart) ∧ ((s.unit p).isLoad = true ↔ row.part = .held) ∧
  (¬Competes s p → row.figure = none ∧ row.best = none ∧ row.allocation = 0 ∧ row.current = 0 ∧ row.power = 0 ∧
    row.disposition = .noStep) ∧
  (Competes s p → row.figure = some (g.up p) ∧ row.best = some (g.best p).index ∧
    (g.Kept s reduces p → row.disposition = .kept ∧ ∀ k, (s.unit p).contract = some k →
      row.allocation = k.power ∧ row.current = k.current ∧ row.power = k.power) ∧
    (¬g.Kept s reduces p → row.current = g.current p ∧ row.power = g.power p ∧
      row.allocation = (if g.current p = 0 then 0 else g.share p) ∧
      (g.Withheld s reduces p → row.disposition = .withheld) ∧
      (¬g.Withheld s reduces p → ∀ a, row.disposition = .step a ↔ g.action p = some a) ∧
      (¬g.Withheld s reduces p → g.action p = none → row.disposition = .noStep)))

/-- The finished plan of an entry of level `l` (R36 to R40): the steps that are neither withheld nor kept, in their order,
the rows and the marks. -/
def Finished (g : Stages) (s : State) (l : Level) (plan : Plan) : Prop :=
  let reduces := plan.reduceOnly
  (reduces = true ↔ (l = .shed ∨ l = .loss) ∧ (s.arb.gainMasked = true ∨ s.arb.changeMasked = true)) ∧
  (plan.deferral = true ↔ g.Defers s reduces) ∧
  (∀ x, x ∈ plan.steps ↔ ∃ p a, g.action p = some a ∧ x = g.stepOf s p a ∧ ¬g.Withheld s reduces p ∧
    ¬g.Kept s reduces p) ∧
  plan.steps.Pairwise (fun x y => ∀ m n, g.Position s reduces x m → g.Position s reduces y n →
    m < n ∨ m = n ∧ x.port.number < y.port.number) ∧
  ∀ p, g.Row s reduces p (plan.rows.get p)

end Stages

end Sys2Proof.Machine
end

