-- ==== Sys2Proof/Certificates/Slice0/Obligations.lean ====
section
/-! DEFINITION. The statements for the provers.  Each is about every state and operand that meets its hypotheses;
where it rests on a choice of the model, its docstring names the log entry. -/

open Sys2Proof Sys2Proof.Machine

/-! ### The step, the reset and the lines -/

/-- One step runs the command at the front of the queue on the state with the queue's rest. -/
def Obligations.StepRunsTheFrontCommand : Prop :=
  ∀ (i : Instr) (rest : List Instr) (s : State),
    step { s with pending := i :: rest } = exec i { s with pending := rest }

/-- With no command waiting, a step lets one millisecond pass, and silence elapsed counts it in ACTIVE; a part
held in reset stays as it is.  The model's choice (assumption log 1). -/
def Obligations.IdleStepPassesOneMillisecond : Prop :=
  ∀ s : State, s.pending = [] →
    (s.held = true → step s = .next s) ∧
    (s.held = false → step s = .next { s with
      clock := ⟨s.clock.base + 1, s.clock.bit + 1000⟩
      mode := { s.mode with silenceElapsed :=
        if s.mode.power = .active then s.mode.silenceElapsed.map (· + 1) else s.mode.silenceElapsed } })

/-- A POWER_ON, SUPPLY_LOW or PIN reset whose cause ends within the step, no other cause holding the part, leaves
every block at its reset values as STARTING begins: the reset cause, the straps and the trim of the board it finds,
and AUTONOMOUS authority with D and L at the class (R16, R65, R69, R115, R128, R146, R163 to R167, R179).
The model's own part: assumption log 6. -/
def Obligations.HardResetsLeaveTheResetValues : Prop :=
  ∀ (s : State) (b : Board), s.held = false →
    ∀ (i : Instr) (k : HardReset),
      (i = .powerOn (some b) ∧ k = .powerOn ∨ i = .supplyLow (some b) ∧ k = .supplyLow ∨
        i = .pinReset (some b) ∧ k = .pin) →
      ∃ t, exec i s = .next t ∧ t.pending = s.pending ∧ t.pins = s.pins ∧ t.clock = ⟨0, 0⟩ ∧
        t.mode.cause = .hard k ∧ t.held = false ∧ t.mode.power = .starting ∧
        t.mode.straps = ⟨strapPorts b.portCount, b.limitClass, b.linkRate⟩ ∧
        t.mode.trimDefault = !b.fuseCheckPasses ∧
        (b.fuseCheckPasses = true → t.mode.trim = b.fuse) ∧
        (b.fuseCheckPasses = false → t.mode.trim = .all ⟨noCorrection, noCorrection⟩) ∧
        t.mode.authority = .autonomous ∧ t.mode.demand = classPower b.limitClass ∧
        t.mode.limit = classPower b.limitClass ∧ t.mode.silenceTimeout = 0 ∧
        t.mode.silenceElapsed = none ∧ t.mode.wakeSet = none ∧
        t.arb = ⟨.empty, false, false, none, false, none⟩ ∧
        (∀ p, t.unit p = .reset (decide (p.number ≤ strapPorts b.portCount))) ∧
        t.path = .reset ∧ t.host = .reset ∧ t.prot.snapshot = none ∧ t.prot.railAsserted = none ∧
        (∀ p, t.meter p = ⟨0, 0, none, if k = .pin then (s.meter p).fine else 0,
          if k = .pin then (s.meter p).whole else 0⟩)

/-- A reset whose cause has not ended holds the part: STARTING does not begin until RESET_CAUSE_END, and where the
supply and the pin overlap, not until the later of the two ends; the reset cause then names that one (R164).
The model's own part: assumption log 6. -/
def Obligations.ResetHoldsUntilTheLastCauseEnds : Prop :=
  (∀ s : State, ∃ t, exec (.pinReset none) s = .next t ∧ t.held = true ∧ t.mode.hold.pin = true ∧
    t.mode.hold.supply = s.mode.hold.supply ∧ t.mode.power = .starting ∧ t.mode.cause = s.mode.cause) ∧
  (∀ s : State, ∃ t, exec (.supplyLow none) s = .next t ∧ t.held = true ∧
    t.mode.hold.supply = some .supplyLow ∧ t.mode.hold.pin = s.mode.hold.pin ∧
    t.mode.power = .starting ∧ t.mode.cause = s.mode.cause ∧ ∀ p, (t.meter p).whole = 0 ∧ (t.meter p).fine = 0) ∧
  (∀ (s : State) (k : HardReset) (b : Board), s.mode.hold.has k = true →
    ∃ t, exec (.resetCauseEnd k b) s = .next t ∧
      ((k = .pin ∧ s.mode.hold.supply.isSome = true ∨ k ≠ .pin ∧ s.mode.hold.pin = true) →
        t.held = true ∧ t.mode.cause = s.mode.cause) ∧
      (¬(k = .pin ∧ s.mode.hold.supply.isSome = true ∨ k ≠ .pin ∧ s.mode.hold.pin = true) →
        t.held = false ∧ t.mode.cause = .hard k ∧ t.mode.power = .starting ∧ t.clock = ⟨0, 0⟩ ∧
        t.mode.straps = ⟨strapPorts b.portCount, b.limitClass, b.linkRate⟩ ∧
        t.mode.demand = classPower b.limitClass ∧ t.mode.limit = classPower b.limitClass ∧
        t.prot = s.prot))

/-- STARTING_END of a part in STARTING that no cause holds: at 10 ms or later the part is ACTIVE and AUTONOMOUS, each
port up to the strap port count is enabled and in EMPTY, or in DEBOUNCE where its presence line is asserted, the others
stay OFF, and the battery and rail levels are those their lines read, an asserted rail being a dip (R70, R157, R165,
R168).
The model's own part: assumption log 1, 4. -/
def Obligations.StartingEnds : Prop :=
  ∀ s : State, s.InStarting → s.held = false →
    ∃ t, exec .startingEnd s = .next t ∧ t.pending = s.pending ∧ t.pins = s.pins ∧
      10 ≤ t.clock.base.toNat ∧ t.mode = { s.mode with
        power := .active, demand := s.classPower, limit := s.classPower } ∧
      t.arb = s.arb ∧
      (∀ p, p.number ≤ s.mode.straps.portCount →
        (t.unit p).enabled = true ∧
        (t.unit p).state = (if s.pins.presence.get p then .debounce else .empty) ∧
        (t.unit p).presence = some ⟨s.pins.presence.get p, t.clock.base⟩) ∧
      (∀ p, s.mode.straps.portCount < p.number → t.unit p = s.unit p) ∧
      t.path = { s.path with batteryPresent := some s.pins.batteryPresent } ∧
      t.prot = { s.prot with railAsserted := some s.pins.railLow } ∧
      t.host = { s.host with
        flags := if s.pins.railLow then s.host.flags.put (.whole .dip) true else s.host.flags
        readyLine := true, attentionLine := s.pins.railLow }

/-- The reset state is lawful: it is in STARTING with every block at its reset values.
The model's own part: assumption log 3, 4. -/
def Obligations.ResetIsLawful : Prop :=
  State.reset.InStarting ∧ State.reset.PolicyLawful ∧ State.reset.MetersLawful ∧
    State.reset.PortsLawful ∧ State.reset.QueueLawful ∧ State.reset.LinesFollow

/-- While the part is in STARTING, no command but a reset or the end of STARTING moves anything but what the sensed
lines read: no port is watched, no line is taken, nothing is served and nothing is posted (R165). -/
def Obligations.StartingKeepsThePartStill : Prop :=
  ∀ (i : Instr) (s : State), s.InStarting → ¬StartsOrResets i →
    ∃ t, exec i s = .next t ∧ t = { s with pins := t.pins }

/-! ### Laws of every step -/

/-- After every command the status output, the ready line and the attention line are at the levels of R129, R183 and
R191.
The model's own part: assumption log 14. -/
def Obligations.LinesFollowEveryCommand : Prop :=
  ∀ (i : Instr) (s t : State), exec i s = .next t →
    t.path.statusOutput = (PortId.all.any fun p => (t.portPath p).state == .closed) ∧
    t.host.readyLine = (t.mode.power != .starting && decide (t.host.queue.length ≤ 2)) ∧
    t.host.attentionLine =
      (t.mode.power != .starting && Flag.all.any fun f => t.host.flags.get f && !t.host.mask.get f)

/-- Every step keeps the policy law: the ranges of D, L and the silence timeout, and in AUTONOMOUS authority D and L at
the class, neither mask set, the Arbiter not halted and the silence timer stopped (R64, R169, R173). -/
def Obligations.PolicyLawIsInvariant : Prop :=
  ∀ s t : State, s.PolicyLawful → step s = .next t → t.PolicyLawful

/-- Every step keeps every meter in its ranges: fine energy below 3,600,000, the accumulator at most 65535, the run count
at most 10 (R146, R150, R154, R158). -/
def Obligations.MetersLawIsInvariant : Prop :=
  ∀ s t : State, s.MetersLawful → step s = .next t → t.MetersLawful

/-- Every step keeps every port record in its ranges: the two counts, rank, derate and the collision count (R69, R115). -/
def Obligations.PortsLawIsInvariant : Prop :=
  ∀ s t : State, s.PortsLawful → step s = .next t → t.PortsLawful

/-- Every step keeps the inbound queue at four entries or fewer, each GOOD one with a payload of its kind's length (R181,
R182). -/
def Obligations.QueueLawIsInvariant : Prop :=
  ∀ s t : State, s.QueueLawful → step s = .next t → t.QueueLawful

/-- A port's energy counters move only at a SAMPLE of that port, a CLEAR_ENERGY, and a POWER_ON or SUPPLY_LOW (R146,
R158, R159). -/
def Obligations.EnergyMovesOnlyAtItsEvents : Prop :=
  ∀ (i : Instr) (s t : State) (p : PortId), exec i s = .next t →
    (∀ v c, i ≠ .sample p v c) → (∀ b, i ≠ .clearEnergy b) → (∀ r, i ≠ .powerOn r) →
    (∀ r, i ≠ .supplyLow r) →
    (t.meter p).whole = (s.meter p).whole ∧ (t.meter p).fine = (s.meter p).fine

/-- A locked capture keeps its contents and its lock through every command but a CLEAR_EVENTS that lists the port's DROOP
and a POWER_ON, SUPPLY_LOW or PIN reset (R156). -/
def Obligations.LockedCaptureIsKept : Prop :=
  ∀ (i : Instr) (s t : State) (p : PortId) (c : Capture), exec i s = .next t →
    (s.meter p).capture = some c → c.locked = true →
    (∀ r, i ≠ .powerOn r ∧ i ≠ .supplyLow r ∧ i ≠ .pinReset r) →
    (∀ flags, i = .clearEvents flags → ((FlagSet.ofVector flags).port.get p).droop = false) →
    (t.meter p).capture = some c

/-- A port's rank, derate and mode are moved by a SET_PORT and by a POWER_ON, SUPPLY_LOW or PIN reset alone (R90). -/
def Obligations.PortSettingsMoveOnlyAtTheirEvents : Prop :=
  ∀ (i : Instr) (s t : State) (p : PortId), exec i s = .next t →
    (∀ a b c d, i ≠ .setPort a b c d) → (∀ r, i ≠ .powerOn r ∧ i ≠ .supplyLow r ∧ i ≠ .pinReset r) →
    (∀ k b, i ≠ .resetCauseEnd k b) →
    (t.unit p).rank = (s.unit p).rank ∧ (t.unit p).derate = (s.unit p).derate ∧
      (t.unit p).mode = (s.unit p).mode

/-! ### Host requests -/

/-- The reading requests are answered OK with what their rule has them read, as the part stands once the entry has left
the queue, and change nothing else (R42, R68, R156, R184 to R187, R189). -/
def Obligations.ReadingRequestsAnswerAndChangeNothing : Prop :=
  ∀ (s : State) (rest : List QueueEntry),
    (s.turn .getStatus [] rest →
      exec .getStatus s = .next (s.replied rest .getStatus .ok (s.dequeued rest).statusPayload).refresh) ∧
    (s.turn .getPlan [] rest →
      exec .getPlan s = .next (s.replied rest .getPlan .ok (s.dequeued rest).planPayload).refresh) ∧
    (s.turn .getEvents [] rest →
      exec .getEvents s = .next (s.replied rest .getEvents .ok
        (be32 s.host.flags.toVector ++ be32 s.host.mask.toVector)).refresh) ∧
    ∀ (b : Byte) (p : PortId), b.toNat = p.number → p.number ≤ s.mode.straps.portCount →
      (s.turn .getPort [b] rest →
        exec (.getPort b) s = .next (s.replied rest .getPort .ok ((s.dequeued rest).portPayload p)).refresh) ∧
      (s.turn .getOffers [b] rest →
        exec (.getOffers b) s =
          .next (s.replied rest .getOffers .ok ((s.dequeued rest).offersPayload p)).refresh) ∧
      (s.turn .getCapture [b] rest →
        exec (.getCapture b) s =
          .next (s.replied rest .getCapture .ok ((s.dequeued rest).capturePayload p)).refresh)

/-- The payloads have the lengths of R196: 32 bytes for GET_STATUS, 80 for GET_PORT, 9 and 13 an entry for GET_OFFERS, 123
and one a listed entry for GET_PLAN, 12 for GET_CAPTURE, 36 for SNAPSHOT, 8 for GET_EVENTS; and their bytes carry the fields that
R196 places there, each number most significant byte first, enumerations by their codes and presence by its bits (R42, R68, R156,
R160, R186, R187, R189, R196).
The model's own part: assumption log 19, the order of the covered list. -/
def Obligations.PayloadsHaveTheirLengths : Prop :=
  (∀ (s : State) (p : PortId),
    s.statusPayload.length = 32 ∧ (s.portPayload p).length = 80 ∧
    (s.offersPayload p).length = 9 + 13 * (s.unit p).table.entries.length ∧
    s.planPayload.length = 123 + s.listedPending.length +
      ((s.arb.inService.map fun r => (s.takeOrder.filter r.covered.has).length).getD 0) ∧
    (s.capturePayload p).length = 12 ∧ s.energyNow.payload.length = 36 ∧ s.host.eventsPayload.length = 8) ∧
  (∀ s : State, s.mode.straps.portCount < 256 → s.QueueLawful → s.PolicyLawful →
    let x := s.statusPayload
    (s.mode.power = .active → numberAt x 0 1 = 1) ∧
    [Authority.autonomous, .directed][numberAt x 1 1]? = some s.mode.authority ∧
    [ResetCause.hard .powerOn, .hard .supplyLow, .hard .pin, .soft][numberAt x 2 1]? = some s.mode.cause ∧
    [s.mode.trimDefault, s.arb.halted, s.arb.gainMasked, s.arb.changeMasked, s.arb.inService.isSome,
      s.path.batteryPresent == some true, s.prot.railAsserted == some true, s.path.statusOutput] =
      (List.range 8).map (numberAt x 3 1).testBit ∧
    numberAt x 4 1 = s.mode.straps.portCount ∧
    [LimitClass.mw45000, .mw65000, .mw100000, .mw140000][numberAt x 5 1]? = some s.mode.straps.limitClass ∧
    [LinkRate.baud115200, .baud1000000][numberAt x 6 1]? = some s.mode.straps.linkRate ∧
    numberAt x 7 1 = (s.takeOrder.filter s.arb.pending.has).length ∧
    numberAt x 8 4 = s.mode.demand ∧ numberAt x 12 4 = s.mode.limit ∧
    numberAt x 16 1 = s.mode.silenceTimeout ∧ numberAt x 17 1 = s.host.queue.length ∧
    (s.mode.silenceElapsed = none → numberAt x 18 4 = 4294967295) ∧
    (∀ n, s.mode.silenceElapsed = some n → numberAt x 18 4 = n % 4294967296) ∧
    [none, some .p1, some .p2, some .p3, some .p4][numberAt x 22 1]? = some s.path.a.bound ∧
    numberAt x 23 2 = s.path.a.draw % 65536 ∧
    [none, some .p1, some .p2, some .p3, some .p4][numberAt x 25 1]? = some s.path.b.bound ∧
    numberAt x 26 2 = s.path.b.draw % 65536 ∧ numberAt x 28 4 = s.clock.base.toNat) ∧
  (∀ (s : State) (p : PortId), s.PortsLawful → s.MetersLawful →
    let x := s.portPayload p
    let u := s.unit p
    numberAt x 0 1 = p.number ∧
    [PortState.off, .empty, .debounce, .discover, .standby, .claiming, .switching, .feeding,
      .faulted][numberAt x 1 1]? = some u.state ∧
    [u.discoveryStart.isSome, u.cleanRunStart.isSome, u.coolDownStart.isSome, u.table.gen.isSome,
      u.cable.isSome, u.contract.isSome, (u.contract.bind Contract.change).isSome,
      (u.contract.bind Contract.window).isSome, u.denialCap.isSome, (u.denialCap.bind DenialCap.gen).isSome,
      u.droopCap.isSome, u.exchange.isSome, (s.portPath p).ceiling.isSome,
      (s.portPath p).offerCurrent.isSome, (s.meter p).capture.isSome, (s.channelOf p).isSome] =
      (List.range 16).map (numberAt x 2 2).testBit ∧
    [u.enabled, u.mode == .basicOnly, u.legacy, u.resyncStart.isSome, (s.meter p).capture.any (·.locked),
      u.table.supply == some .dock, (u.contract.bind Contract.window).any (·.verdict == .invalid),
      (u.contract.bind Contract.gen).isSome] = (List.range 8).map (numberAt x 4 1).testBit ∧
    numberAt x 5 1 = u.rank ∧ numberAt x 6 1 = u.derate ∧ numberAt x 7 1 % 16 = u.restarts ∧
    numberAt x 7 1 / 16 = u.trips ∧
    (∀ t, u.discoveryStart = some t → numberAt x 8 4 = (s.clock.base - t).toNat) ∧
    (∀ t, u.cleanRunStart = some t → numberAt x 12 4 = (s.clock.base - t).toNat) ∧
    (∀ t, u.coolDownStart = some t → numberAt x 16 4 = (s.clock.base - t).toNat) ∧
    (∀ g, u.table.gen = some g → numberAt x 20 1 % 16 = g.toNat) ∧
    (u.table.entries.length < 16 → numberAt x 20 1 / 16 = u.table.entries.length) ∧
    (∀ c, u.cable = some c →
      numberAt x 21 1 = c.current / 50 % 256 ∧ numberAt x 22 1 = c.voltage / 500 % 256) ∧
    (∀ k, u.contract = some k →
      (k.index < 8 → numberAt x 23 1 % 16 = k.index ∧
        [OfferKind.basic, .fixed, .range][numberAt x 23 1 / 16]? = some k.kind) ∧
      (∀ g, k.gen = some g → numberAt x 24 1 = g.toNat) ∧ numberAt x 25 2 = k.vop % 65536 ∧
      numberAt x 27 2 = k.current % 65536 ∧ numberAt x 29 4 = k.power % 4294967296 ∧
      numberAt x 33 4 = k.since.toNat ∧
      (∀ c, k.change = some c → numberAt x 37 1 = c.index % 256 ∧
        (∀ g, c.gen = some g → numberAt x 38 1 = g.toNat) ∧ numberAt x 39 2 = c.current % 65536 ∧
        numberAt x 41 2 = c.vop % 65536) ∧
      (∀ w, k.window = some w → numberAt x 43 4 = w.start.toNat)) ∧
    (∀ c, u.denialCap = some c → numberAt x 47 4 = c.power % 4294967296 ∧
      (∀ g, c.gen = some g → numberAt x 51 1 = g.toNat)) ∧
    (∀ w, u.droopCap = some w → numberAt x 52 4 = w % 4294967296) ∧
    (∀ e, u.exchange = some e → (match e with
      | .query n start => n < 16 → numberAt x 56 1 = n * 16 ∧
          (∀ t, start = some t → numberAt x 57 2 = (s.clock.base - t).toNat % 65536)
      | .claim _ _ _ _ _ n t => n < 16 → numberAt x 56 1 = 1 + n * 16 ∧
          numberAt x 57 2 = (s.clock.base - t).toNat % 65536
      | .ready _ t => numberAt x 56 1 % 16 = 2 ∧ numberAt x 57 2 = (s.clock.base - t).toNat % 65536
      | .settle _ t => numberAt x 56 1 % 16 = 3 ∧
          numberAt x 57 2 = (s.clock.base - t).toNat % 65536 : Prop)) ∧
    [PathState.openPath, .precharge, .closed][numberAt x 59 1]? = some (s.portPath p).state ∧
    [none, some ChannelId.a, some .b][numberAt x 60 1]? = some (s.channelOf p) ∧
    (∀ t, (s.portPath p).prechargeStart = some t →
      numberAt x 61 2 = (s.clock.base - t).toNat % 65536) ∧
    (∀ n, (s.portPath p).offerCurrent = some n → numberAt x 63 2 = n % 65536 ∧
      numberAt x 67 2 = n * u.derate / 1000 * 10 % 65536) ∧
    (∀ n, (s.portPath p).ceiling = some n → numberAt x 65 2 = n % 65536) ∧
    numberAt x 69 2 = (s.meter p).excess ∧ numberAt x 71 1 = (s.meter p).droopRun ∧
    numberAt x 72 4 = (s.meter p).whole ∧ numberAt x 76 4 = (s.meter p).fine) ∧
  (∀ (s : State) (p : PortId), (s.unit p).table.entries.length ≤ 8 →
    let x := s.offersPayload p
    let u := s.unit p
    let shown := u.state = .standby ∨ u.state = .feeding
    numberAt x 0 1 = p.number ∧ numberAt x 1 1 = u.table.entries.length ∧
    (numberAt x 2 1).testBit 0 = u.table.gen.isSome ∧
    ((numberAt x 2 1).testBit 1 = true ↔ shown ∧ u.best.isSome = true) ∧
    (numberAt x 2 1).testBit 2 = (u.table.supply == some .dock) ∧
    (∀ g, u.table.gen = some g → numberAt x 3 1 = g.toNat) ∧
    (∀ b, u.best = some b → shown → numberAt x 4 1 = b.index % 256 ∧
      numberAt x 5 4 = u.figureOf b.usable % 4294967296) ∧
    ∀ (i : Nat) (e : Entry), u.table.entries[i]? = some e →
      numberAt x (9 + 13 * i) 1 % 16 = i ∧
      [OfferKind.basic, .fixed, .range][numberAt x (9 + 13 * i) 1 / 16 % 4]? = some e.kind ∧
      [Eligibility.eligible, .clamped, .ineligible][numberAt x (9 + 13 * i) 1 / 64]? = some e.eligibility ∧
      (e.sent = .basic → readOffer (numberAt x (10 + 13 * i) 4) = some (.fixed 5000 900)) ∧
      (∀ o, e.sent = .offer o → Sendable o → readOffer (numberAt x (10 + 13 * i) 4) = some o) ∧
      (∀ f, e.figures i u.cableCurrent u.derate = some f → numberAt x (14 + 13 * i) 2 = f.vop % 65536 ∧
        numberAt x (16 + 13 * i) 2 = f.ider % 65536 ∧ numberAt x (18 + 13 * i) 4 = f.usable % 4294967296) ∧
      (e.eligibility = .ineligible → numberAt x (14 + 13 * i) 8 = 0)) ∧
  (∀ s : State,
    let x := s.planPayload
    [s.arb.inService.isSome, s.arb.inService.any (·.inFlight), s.arb.inService.any (·.reduceOnly),
      s.arb.inService.any (·.plan.deferral), s.arb.halted, s.arb.lastOutcome.isSome] =
      (List.range 6).map (numberAt x 0 1).testBit ∧
    (∀ o, s.arb.lastOutcome = some o → (x.drop 5).head? = some (listedByte o.taken false) ∧
      (o.stepsDone < 16 → numberAt x 6 1 / 16 = o.stepsDone ∧
        [RebalanceResult.done, .noChange, .partly, .abandoned][numberAt x 6 1 % 16]? = some o.result) ∧
      numberAt x 7 4 = o.time.toNat) ∧
    (s.arb.inService = none → (x.drop 11).take 112 = List.replicate 112 0#8) ∧
    (∀ r, s.arb.inService = some r → r.plan.steps.length ≤ 4 → r.results.length = r.plan.steps.length →
      r.next ≤ 4 →
      (x.drop 1).head? = some (listedByte r.taken false) ∧ numberAt x 2 1 % 16 = r.plan.steps.length ∧
      numberAt x 2 1 / 16 = r.next ∧
      numberAt x 3 1 = (s.takeOrder.filter r.covered.has).length ∧
      (∀ (i : Nat) (y : PlanStep) (z : StepResult), r.plan.steps[i]? = some y → r.results[i]? = some z →
        let slot := 11 + 12 * i
        numberAt x slot 1 = y.port.number ∧
        [Action.fin, .lower, .restate, .new, .raise][numberAt x (slot + 1) 1 % 16]? = some y.action ∧
        [StepResult.waiting, .inFlight, .done, .skipped, .failed, .aborted][numberAt x (slot + 1) 1 / 16]? =
          some z ∧
        (∀ n, y.index = some n → numberAt x (slot + 2) 1 = n % 256) ∧
        numberAt x (slot + 3) 1 = (y.gen.map BitVec.toNat).getD 255 ∧
        (∀ v, y.vop = some v → numberAt x (slot + 4) 2 = v % 65536) ∧
        numberAt x (slot + 6) 2 = y.current % 65536 ∧ numberAt x (slot + 8) 4 = y.power % 4294967296) ∧
      (∀ i : Nat, r.plan.steps.length ≤ i → i < 4 →
        (x.drop (11 + 12 * i)).take 12 = List.replicate 12 0#8) ∧
      (∀ p : PortId, let row := r.plan.rows.get p
        let slot := 59 + 16 * (p.number - 1)
        [Part.takesPart, .held, .none][numberAt x slot 1 % 16]? = some row.part ∧
        [Disposition.step .fin, .step .lower, .step .restate, .step .new, .step .raise, .noStep, .kept,
          .withheld][numberAt x slot 1 / 16]? = some row.disposition ∧
        (∀ n, row.best = some n → numberAt x (slot + 1) 1 = n % 256) ∧
        (∀ n, row.figure = some n → numberAt x (slot + 2) 4 = n % 4294967296) ∧
        numberAt x (slot + 6) 4 = row.allocation % 4294967296 ∧
        numberAt x (slot + 10) 2 = row.current % 65536 ∧ numberAt x (slot + 12) 4 = row.power % 4294967296)) ∧
    numberAt x 4 1 = (s.takeOrder.filter s.arb.pending.has).length ∧
    x.drop 123 = ((s.arb.inService.map fun r => s.takeOrder.filter r.covered.has).getD []).map
        (listedByte · false) ++
      (s.takeable.map (listedByte · false) ++
        (s.takeOrder.filter fun e => s.arb.pending.has e && s.arb.masked e.level).map (listedByte · true))) ∧
  (∀ (s : State) (p : PortId),
    let x := s.capturePayload p
    numberAt x 0 1 = p.number ∧ (numberAt x 1 1).testBit 0 = (s.meter p).capture.isSome ∧
    ∀ c, (s.meter p).capture = some c → (numberAt x 1 1).testBit 1 = c.locked ∧
      ((numberAt x 1 1).testBit 2 = true ↔ c.cause = .dip) ∧ numberAt x 2 4 = c.time.toNat ∧
      numberAt x 6 2 = c.voltage % 65536 ∧ numberAt x 8 2 = c.current % 65536 ∧
      numberAt x 10 2 = c.vop % 65536) ∧
  (∀ (s : State) (p : PortId), s.MetersLawful →
    let x := s.energyNow.payload
    numberAt x 0 4 = s.clock.base.toNat ∧ numberAt x (8 * p.number - 4) 4 = (s.meter p).whole ∧
      numberAt x (8 * p.number) 4 = (s.meter p).fine) ∧
  (∀ (s : State) (i : Fin 30) (f : Flag), Flag.all[i]? = some f →
    (numberAt s.host.eventsPayload 0 4).testBit i = s.host.flags.get f ∧
      (numberAt s.host.eventsPayload 4 4).testBit i = s.host.mask.get f)

/-- A request that names no port, or one above the strap port count, is refused with BAD_PORT, and SET_PORT, SET_DEMAND,
SET_LIMIT, SET_MASK, HALT and RESUME with NOT_DIRECTED in AUTONOMOUS authority, SET_PORT with BAD_PORT in DIRECTED; none changes
anything (R71, R88 to R90, R156, R159, R169, R185). -/
def Obligations.RefusedRequestsChangeNothing : Prop :=
  (∀ (s : State) (rest : List QueueEntry) (b : Byte),
      (∀ p : PortId, b.toNat = p.number → s.mode.straps.portCount < p.number) →
      ∀ (i : Instr) (r : Request),
        (i = .getPort b ∧ r = .getPort ∨ i = .getOffers b ∧ r = .getOffers ∨
          i = .portEnable b ∧ r = .portEnable ∨ i = .portDisable b ∧ r = .portDisable ∨
          i = .portRestart b ∧ r = .portRestart ∨ i = .clearEnergy b ∧ r = .clearEnergy ∨
          i = .getCapture b ∧ r = .getCapture) →
        s.turn r [b] rest → exec i s = .next (s.replied rest r .badPort []).refresh) ∧
  (∀ (s : State) (rest : List QueueEntry), s.mode.authority = .autonomous →
      ∀ (i : Instr) (r : Request) (payload : List Byte), i.request = some (r, payload) →
        (r = .setPort ∨ r = .setDemand ∨ r = .setLimit ∨ r = .setMask ∨ r = .halt ∨ r = .resume) →
        s.turn r payload rest → exec i s = .next (s.replied rest r .notDirected []).refresh) ∧
  (∀ (s : State) (rest : List QueueEntry) (b rank derate mode : Byte), s.mode.authority = .directed →
      (∀ p : PortId, b.toNat = p.number → s.mode.straps.portCount < p.number) →
      s.turn .setPort [b, rank, derate, mode] rest →
      exec (.setPort b rank derate mode) s = .next (s.replied rest .setPort .badPort []).refresh)

/-- A request command whose entry is not at the head of the queue, or that the server may not serve now, moves nothing but
the three lines that follow the state; one that finds an empty queue and no frame being received brings its own frame: it does
what it does on the state in which that frame's entry has been placed, last byte end being now and the silence timer
restarted.  The model's choice (assumption log 2). -/
def Obligations.RequestsWaitForTheirTurn : Prop :=
  (∀ (i : Instr) (s : State) (r : Request) (payload : List Byte), i.request = some (r, payload) →
      (s.mode.power ≠ .active ∨ s.host.reply ≠ none ∨
        (∃ e rest, s.host.queue = e :: rest ∧ e ≠ goodEntry r payload) ∨
        (s.host.queue = [] ∧ s.host.reception ≠ .hunting)) →
      exec i s = .next s.refresh) ∧
  (∀ (i : Instr) (s : State) (r : Request) (payload : List Byte), i.request = some (r, payload) →
      s.mode.power = .active → s.host.reply = none → s.host.queue = [] → s.host.reception = .hunting →
      exec i s = exec i { s with
        mode := { s.mode with silenceElapsed := s.mode.silenceElapsed.map fun _ => 0 }
        host := { s.host with lastByteEnd := some s.clock.base, queue := [goodEntry r payload] } })

/-- The frame that carries a request reads back as the GOOD entry of that request, with a check that passes: every kind of request
and every payload of its length.  The bytes of every reply frame from LEN through the check byte add up to a multiple of 256, and
it carries the start byte, the payload's length, the kind with its top bit set, the status and the payload in their places. A flag
vector reads back as the flags it was written from, its top two bits being 0.  A dialogue frame whose last byte is the code over
the bytes before reads as its kind and sender have it, for destinations 0 and 3, and any other last byte, destination, kind or
sender reads as nothing; each payload reads back its fields, and one of another length is unreadable; the part's own QUERY and
CLAIM carry theirs (R94, R102, R119, R120, R181, R185, R194, R195). -/
def Obligations.LinkFormatsReadBack : Prop :=
  (∀ (i : Instr) (r : Request) (payload : List Byte), i.request = some (r, payload) →
      readRequest (writeRequest r payload) = some (goodEntry r payload, true)) ∧
  (∀ r : Reply, r.payload.length ≤ 255 →
      checkPasses r.frame.tail = true ∧ r.frame.head? = some startByte ∧
        r.frame[1]? = some (byte r.payload.length) ∧
        r.frame[2]? = some (r.kind.getD 0 ||| 0x80#8) ∧ r.frame[3]? = some r.status.code ∧
        (r.frame.drop 4).take r.payload.length = r.payload ∧ r.frame.length = r.payload.length + 5) ∧
  (∀ x : FlagSet, x.toVector < 1073741824 ∧ FlagSet.ofVector (BitVec.ofNat 32 x.toVector) = x) ∧
  (∀ (destination source kind gen : Nat) (payload : List Byte) (check : Byte), destination < 4 → source < 4 →
      kind < 16 → gen < 16 → payload.length % 2 = 0 → payload.length ≤ 30 →
      let body := byte (destination * 64 + source * 16 + kind) :: byte (gen * 16 + payload.length / 2) :: payload
      frameComplete (body ++ [check]) = true ∧ crc8 (body ++ [crc8 body]) = 0 ∧
      (check ≠ crc8 body → readFrame (body ++ [check]) = none) ∧
      (destination = 1 ∨ destination = 2 → readFrame (body ++ [check]) = none) ∧
      (destination = 0 ∨ destination = 3 →
        (∀ k : ReceivedKind, (kind = 1 ∧ source = 1 ∧ k = .offers ∨ kind = 3 ∧ source = 1 ∧ k = .grant ∨
            kind = 4 ∧ source = 1 ∧ k = .deny ∨ kind = 5 ∧ source = 1 ∧ k = .ready ∨
            kind = 7 ∧ source = 2 ∧ k = .rating) →
          readFrame (body ++ [crc8 body]) = readPayload k (BitVec.ofNat 4 gen) payload) ∧
        (¬(source = 1 ∧ (kind = 1 ∨ kind = 3 ∨ kind = 4 ∨ kind = 5) ∨ source = 2 ∧ kind = 7) →
          readFrame (body ++ [crc8 body]) = none))) ∧
  (∀ gen : Gen,
      (∀ menu : List SentOffer, menu.length ≤ 7 → (∀ o ∈ menu, Sendable o) → ∀ code pad : Byte,
        readPayload .offers gen (code :: pad :: menu.flatMap fun o => be32 (sentWord (.offer o))) =
          some (.offers gen (if code = 0x02#8 then .dock else .adapter) menu)) ∧
      (∀ index current : Nat, index < 8 → current < 1024 →
        readPayload .grant gen (be16 (index * 8192 + current * 8)) = some (.grant gen index (current * 10))) ∧
      (∀ code pad : Byte, readPayload .deny gen [code, pad] = some (.deny gen (if code = 0x01#8 then .stale
        else if code = 0x02#8 then .over else .unavailable))) ∧
      readPayload .ready gen [] = some (.ready gen) ∧
      (∀ a b : Byte, readPayload .rating gen [a, b] = some (.rating (a.toNat * 50) (b.toNat * 500))) ∧
      (∀ k payload, payload.length ≠ (match k with
        | .grant | .deny | .rating => 2
        | .ready => 0
        | .offers => 2 + payload.length / 4 * 4) ∨ (k = .offers ∧ 30 < payload.length) →
        readPayload k gen payload = none)) ∧
  queryFrame = [0xC3#8, 0x86#8, 0x00#8, 0xC8#8] ∧
  ∀ (index current vop : Nat) (gen : Option Gen), index < 8 → current / 10 < 1024 → vop / 50 < 1024 →
      ∃ w, w < 4294967296 ∧ field w 29 3 = index ∧ field w 19 10 = current / 10 ∧ field w 9 10 = vop / 50 ∧
        field w 0 9 = 0 ∧
        let body := 0x42#8 :: byte ((gen.getD 0).toNat * 16 + 2) :: be32 w
        claimFrame index current vop gen = 0xC3#8 :: (body ++ [crc8 body])

/-- In DIRECTED authority SET_MASK writes both masks and HALT sets the halted flag, and neither moves anything else.  RESUME with
the flag clear moves nothing; with it set and no rebalance in service, or a step in flight, it clears the flag alone; and a
waiting rebalance that a pending entry preempts is abandoned, its entry posted back and the last outcome written with the
steps done; one that none preempts goes on with its next step, and is in service with the step in flight where that step hands a
claim over (R45, R60, R62, R63).
The model's own part: assumption log 7, by which the next step index of that step in flight stays its own (DEDUCED). -/
def Obligations.MasksAndHaltAreWritten : Prop :=
  (∀ (s : State) (rest : List QueueEntry), s.mode.authority = .directed →
      (∀ m : Byte, s.turn .setMask [m] rest →
        exec (.setMask m) s = .next ({ s with arb := { s.arb with
          gainMasked := m.getLsbD 0, changeMasked := m.getLsbD 1 } }.replied rest .setMask .ok []).refresh) ∧
      (s.turn .halt [] rest →
        exec .halt s = .next ({ s with arb := { s.arb with halted := true } }.replied rest .halt .ok []).refresh)) ∧
  (∀ (s : State) (rest : List QueueEntry), s.turn .resume [] rest → s.mode.authority = .directed →
      (s.arb.halted = false → exec .resume s = .next (s.replied rest .resume .ok []).refresh) ∧
      (s.arb.halted = true → (∀ r, s.arb.inService = some r → r.inFlight = true) →
        exec .resume s = .next
          ({ s with arb := { s.arb with halted := false } }.replied rest .resume .ok []).refresh) ∧
      (s.arb.halted = true → ∀ r, s.arb.inService = some r → r.inFlight = false →
        r.next < r.plan.steps.length → ∀ e, s.Preempts r e →
        ∃ t, exec .resume s = .next t ∧ t.arb.halted = false ∧ t.arb.inService = none ∧
          t.arb.pending = s.arb.pending.put r.taken true ∧
          t.arb.lastOutcome = some ⟨r.taken, .abandoned, r.stepsDone, s.clock.base⟩ ∧
          t.host.flags.rebalance = true ∧ t.units = s.units ∧ t.path.port = s.path.port ∧
          t.path.a = s.path.a ∧ t.path.b = s.path.b ∧ t.mode = s.mode ∧ t.prot = s.prot) ∧
      (s.arb.halted = true → exec .resume s = .next
        (({ s with arb := { s.arb with halted := false } } : State).act.replied rest .resume .ok []).refresh) ∧
      (s.arb.halted = true → ∀ r, s.arb.inService = some r → r.inFlight = false → (∀ e, ¬s.Preempts r e) →
        ∀ x, r.step = some x → s.revalidates x = true → x.action = .raise → (s.unit x.port).speaks = true →
        x.index.getD 0 ≠ 0 →
        ∃ t, exec .resume s = .next t ∧ t.arb.halted = false ∧
          t.arb.inService = some { r with results := r.results.set r.next .inFlight, inFlight := true } ∧
          t.arb.pending = s.arb.pending ∧ (t.unit x.port).state = .claiming ∧
          (t.unit x.port).exchange = some (.claim .raise (x.index.getD 0) x.current (x.vop.getD 0)
            (s.unit x.port).table.gen 1 s.clock.base) ∧ KeepsOthers s t x.port ∧ t.host.queue = rest ∧
          t.host.reply = some ⟨some 0x0F#8, .ok, []⟩))

/-- SET_DEMAND in DIRECTED authority writes D, at most 200,000 mW, and posts CHANGE GLOBAL where D has moved.  SET_LIMIT writes L
between 5000 mW and the class; an L that has not moved does nothing more, a raised one is followed by the raise and CHANGE
GLOBAL, and a lowered one scales both channels where their sum was above it, and posts SHED GLOBAL where the contracts add up
to more than it, else CHANGE GLOBAL.  A value pulled into its range is answered CLAMPED (R137, R139, R140, R172). -/
def Obligations.DemandAndLimitAreWritten : Prop :=
  (∀ (s : State) (rest : List QueueEntry) (d : Word32), s.turn .setDemand (be32 d.toNat) rest →
      s.mode.authority = .directed →
      exec (.setDemand d) s = .next
        (((if min 200000 d.toNat ≠ s.mode.demand then s.post .change .whole else s).modMode fun m =>
            { m with demand := min 200000 d.toNat }).replied rest .setDemand
          (if 200000 < d.toNat then .clamped else .ok) []).refresh) ∧
  (∀ (s : State) (rest : List QueueEntry) (d : Word32) (l : Nat), s.turn .setLimit (be32 d.toNat) rest →
      s.mode.authority = .directed → l = min s.classPower (max 5000 d.toNat) →
      let status := if l = d.toNat then Status.ok else .clamped
      let written := { s with mode := { s.mode with limit := l } }
      (l = s.mode.limit → exec (.setLimit d) s = .next (s.replied rest .setLimit status []).refresh) ∧
      (s.mode.limit < l →
        exec (.setLimit d) s = .next ((written.raise.post .change .whole).replied rest .setLimit status []).refresh) ∧
      (l < s.mode.limit →
        exec (.setLimit d) s = .next
          ((written.scale.post (if l < s.contractSum then .shed else .change) .whole).replied rest
            .setLimit status []).refresh))

/-- The scaling of both channels when L is lowered leaves each draw limit at or below its old value, and leaves the channels'
committed sum at or below the new L, voltages standing in 50 mV steps and draw limits in 10 mA steps; the raise lowers no draw
limit, and where the sum was within L it stays within L; it brings channel A and then channel B up to the smaller of target and
headroom, where the port is in FEEDING or DISCOVER, and leaves any other.  The headroom is floor((L - the other channel's
committed power) × 1000 / Vop / 10) × 10, committed power is floor(Vop × draw limit / 1000), 0 for an unbound channel, Ider is
floor(offer current × d / 1000) × 10, and a ceiling bounds the target.  Every step keeps the power laws, and the reset state has
them: no channel draws more than its contract and its port's Ider, nor an unbound one anything, the committed sum is within L, and
every accumulator is below the trip threshold, at 0 with its run count under an OPEN path; the ranges of the port records, a
derate of at most 100 % among them, are its premise, and are an invariant of their own (R69, R131, R135 to R137, R140, R149,
R150). -/
def Obligations.DrawLimitsStayWithinL : Prop :=
  (∀ s : State, s.GridLawful →
      s.scale.chanPower .a + s.scale.chanPower .b ≤ s.mode.limit ∧
        s.scale.path.a.draw ≤ s.path.a.draw ∧ s.scale.path.b.draw ≤ s.path.b.draw ∧
        (s.chanPower .a + s.chanPower .b ≤ s.mode.limit → s.scale = s) ∧
        (s.mode.limit < s.chanPower .a + s.chanPower .b →
          s.scale.path.a.draw = s.path.a.draw * s.mode.limit / (s.chanPower .a + s.chanPower .b) / 10 * 10 ∧
          s.scale.path.b.draw = s.path.b.draw * s.mode.limit / (s.chanPower .a + s.chanPower .b) / 10 * 10)) ∧
  (∀ s : State,
      s.path.a.draw ≤ s.raise.path.a.draw ∧ s.path.b.draw ≤ s.raise.path.b.draw ∧
        (s.chanPower .a + s.chanPower .b ≤ s.mode.limit →
          s.raise.chanPower .a + s.raise.chanPower .b ≤ s.mode.limit) ∧
        s.raise = { s with path := { s.path with a := s.raise.path.a, b := s.raise.path.b } } ∧
        s.raise.path.a.bound = s.path.a.bound ∧ s.raise.path.b.bound = s.path.b.bound) ∧
  (∀ (s : State) (c : ChannelId) (p : PortId) (k : Contract), (s.chan c).bound = some p →
      (s.unit p).contract = some k →
      let raised := (s.unit p).state = .feeding ∨ (s.unit p).state = .discover
      let target := underCeiling (min k.current (s.contractIder p)) (s.portPath p).ceiling
      let headroom := if c = .a then s.headroom .a k.vop else s.raise.headroom .b k.vop
      (raised → (s.raise.chan c).draw = max (s.chan c).draw (min target headroom)) ∧
      (¬raised → s.raise.chan c = s.chan c)) ∧
  (∀ (s : State) (c : ChannelId) (vop : Nat),
      ((s.chan c.other).bound = none → s.chanPower c.other = 0 ∧ s.headroom c vop = s.mode.limit * 1000 / vop / 10 * 10) ∧
      ∀ q k, (s.chan c.other).bound = some q → (s.unit q).contract = some k →
        let other := k.vop * (s.chan c.other).draw / 1000
        s.chanPower c.other = other ∧ s.headroom c vop = (s.mode.limit - other) * 1000 / vop / 10 * 10) ∧
  (∀ (s : State) (p : PortId) (offer : Nat), (s.portPath p).offerCurrent = some offer →
      s.contractIder p = offer * (s.unit p).derate / 1000 * 10) ∧
  (∀ n c : Nat, underCeiling n (some c) = min n c ∧ underCeiling n none = n) ∧
  State.reset.PowerLawful ∧
  ∀ s t : State, s.PolicyLawful → s.PortsLawful → s.PathsLawful → s.GridLawful → s.PowerLawful → step s = .next t →
    t.PowerLawful

/-- TAKE_CONTROL writes D and L, both clamped, and posts CHANGE GLOBAL.  Where L is left as it was, nothing else of the power
moves; a raised L is followed by the raise, and a lowered one scales both channels where their sum was above it, and posts SHED
GLOBAL where the contracts add up to more; entering from AUTONOMOUS sets AUTHORITY and starts the silence timer from 0 where the
timeout is above 0, and in DIRECTED it does neither (R137, R139, R140, R170). -/
def Obligations.TakeControlEntersDirected : Prop :=
  ∀ (s : State) (rest : List QueueEntry) (d l : Word32),
    s.turn .takeControl (be32 d.toNat ++ be32 l.toNat) rest →
    ∃ t, exec (.takeControl d l) s = .next t ∧ t.mode.authority = .directed ∧
      t.mode.demand = min 200000 d.toNat ∧ t.mode.limit = min s.classPower (max 5000 l.toNat) ∧
      t.arb.pending.has ⟨.change, .whole⟩ = true ∧
      (t.mode.limit < s.mode.limit → t.mode.limit < s.contractSum →
        t.arb.pending.has ⟨.shed, .whole⟩ = true) ∧
      t.mode.silenceElapsed = (if s.mode.authority = .autonomous then
        (if 0 < s.mode.silenceTimeout then some 0 else none) else s.mode.silenceElapsed) ∧
      t.host.flags = (if s.mode.authority = .autonomous then
        s.host.flags.put (.whole .authority) true else s.host.flags) ∧
      t.host.queue = rest ∧ t.host.mask = s.host.mask ∧
      t.host.reply = some ⟨some 0x05#8, if 200000 < d.toNat ∨ t.mode.limit ≠ l.toNat then .clamped else .ok, []⟩ ∧
      (t.mode.limit = s.mode.limit → t.path.a = s.path.a ∧ t.path.b = s.path.b) ∧
      (let written : State := { s with mode := { s.mode with limit := t.mode.limit } }
        let sum := s.chanPower .a + s.chanPower .b
        (s.mode.limit < t.mode.limit → t.path.a = written.raise.path.a ∧ t.path.b = written.raise.path.b ∧
          s.path.a.draw ≤ t.path.a.draw ∧ s.path.b.draw ≤ t.path.b.draw) ∧
        (t.mode.limit < s.mode.limit → sum ≤ t.mode.limit → t.path.a = s.path.a ∧ t.path.b = s.path.b) ∧
        (t.mode.limit < s.mode.limit → t.mode.limit < sum →
          t.path.a = { s.path.a with draw := s.path.a.draw * t.mode.limit / sum / 10 * 10 } ∧
          t.path.b = { s.path.b with draw := s.path.b.draw * t.mode.limit / sum / 10 * 10 }) ∧
        (¬(t.mode.limit < s.mode.limit ∧ t.mode.limit < s.contractSum) →
          t.arb.pending = s.arb.pending.put ⟨.change, .whole⟩ true)) ∧
      t.path.port = s.path.port ∧ t.units = s.units ∧ t.prot = s.prot ∧ t.arb.halted = s.arb.halted ∧
      t.arb.gainMasked = s.arb.gainMasked ∧ t.arb.changeMasked = s.arb.changeMasked

/-- RELEASE_CONTROL and the expiry of the silence timer enter AUTONOMOUS from DIRECTED: D and L at the class, the draw limits those of
the raise where L rose, both masks and the halted flag clear, silence elapsed absent, AUTHORITY set and CHANGE GLOBAL posted.  A
rebalance in service that was not halted, or whose step is in flight, goes on as it was, less the CHANGE GLOBAL that it covered; one
that waited is abandoned where an entry preempts it, the masks being clear, and goes on otherwise.  In AUTONOMOUS a
RELEASE_CONTROL is answered OK and changes nothing (R50, R60, R63, R64, R137, R171, R173).
The model's own part: assumption log 1, 8. -/
def Obligations.EntryToAutonomous : Prop :=
  (∀ (s : State) (rest : List QueueEntry), s.turn .releaseControl [] rest →
    (s.mode.authority = .autonomous →
      exec .releaseControl s = .next (s.replied rest .releaseControl .ok []).refresh) ∧
    (s.mode.authority = .directed → s.arb.inService = none →
      ∃ t, exec .releaseControl s = .next t ∧ t.Autonomous ∧ t.mode.authority = .autonomous ∧
        t.mode.silenceTimeout = s.mode.silenceTimeout ∧
        t.arb.pending = s.arb.pending.put ⟨.change, .whole⟩ true ∧
        t.host.flags = s.host.flags.put (.whole .authority) true ∧ t.host.queue = rest ∧
        t.host.reply = some ⟨some 0x06#8, .ok, []⟩ ∧ t.units = s.units ∧ t.prot = s.prot ∧
        (s.mode.limit = s.classPower → t.path.a = s.path.a ∧ t.path.b = s.path.b)) ∧
    (s.mode.authority = .directed →
      let u := (s.dequeued rest).afterAutonomous
      exec .releaseControl s = .next ((((u.setFlag (.whole .authority)).post .change .whole).replied rest
        .releaseControl .ok []).refresh) ∧ AutonomousEntered (s.dequeued rest) u)) ∧
  (∀ (s : State) (n : Nat), s.mode.authority = .directed → 0 < s.mode.silenceTimeout →
    s.mode.power = .active → s.mode.silenceElapsed = some n →
    ∃ t, exec .silenceExpiry s = .next t ∧ t.mode.authority = .autonomous ∧
      let u := ({ s with clock := t.clock } : State).afterAutonomous
      t = (((u.setFlag (.whole .authority)).post .change .whole)).refresh ∧
      AutonomousEntered { s with clock := t.clock } u) ∧
  (∀ (s : State) (n : Nat), s.mode.authority = .directed → 0 < s.mode.silenceTimeout →
    s.mode.power = .active → s.mode.silenceElapsed = some n → s.arb.inService = none →
    ∃ t, exec .silenceExpiry s = .next t ∧ t.Autonomous ∧ t.mode.authority = .autonomous ∧
      t.clock.base = s.clock.base + BitVec.ofNat 32 (s.mode.silenceTimeout * 1000 - n) ∧
      t.mode.silenceTimeout = s.mode.silenceTimeout ∧
      t.arb.pending = s.arb.pending.put ⟨.change, .whole⟩ true ∧
      t.host.flags = s.host.flags.put (.whole .authority) true ∧ t.host.queue = s.host.queue ∧
      t.host.reply = s.host.reply ∧ t.units = s.units ∧ t.prot = s.prot)

/-- SET_SILENCE writes the timeout, at most 60 s; in DIRECTED authority silence elapsed becomes 0 where the result is above 0
and absent where it is 0, and in AUTONOMOUS it is absent (R173). -/
def Obligations.SetSilenceWritesTheTimeout : Prop :=
  ∀ (s : State) (rest : List QueueEntry) (b : Byte), s.turn .setSilence [b] rest →
    exec (.setSilence b) s = .next
      ({ s with mode := { s.mode with
          silenceTimeout := min 60 b.toNat
          silenceElapsed := if s.mode.authority = Authority.directed ∧ b ≠ 0 then some 0 else none } }.replied
        rest .setSilence (if 60 < b.toNat then .clamped else .ok) []).refresh

/-- Every step keeps every voltage in 50 mV steps and every current that reaches a draw limit in 10 mA steps; the reset
state has them so (R2, R5, R9, R128). -/
def Obligations.GridLawIsInvariant : Prop :=
  State.reset.GridLawful ∧ ∀ s t : State, s.GridLawful → step s = .next t → t.GridLawful

/-- SNAPSHOT writes the snapshot record with the time base and the four ports' counters as they stand, and answers OK with it, in
both authorities; the record stays until the next SNAPSHOT, or until a POWER_ON, SUPPLY_LOW or PIN reset removes it (R160). -/
def Obligations.SnapshotCopiesTheCounters : Prop :=
  (∀ (s : State) (rest : List QueueEntry), s.turn .snapshot [] rest →
      exec .snapshot s = .next
        ({ s with prot := { s.prot with snapshot := some ⟨s.clock.base,
            ⟨⟨(s.meter .p1).whole, (s.meter .p1).fine⟩, ⟨(s.meter .p2).whole, (s.meter .p2).fine⟩,
             ⟨(s.meter .p3).whole, (s.meter .p3).fine⟩, ⟨(s.meter .p4).whole, (s.meter .p4).fine⟩⟩⟩ } }.replied
          rest .snapshot .ok
          (be32 s.clock.base.toNat ++ PortId.all.flatMap fun p =>
            be32 (s.meter p).whole ++ be32 (s.meter p).fine)).refresh) ∧
  (∀ (i : Instr) (s t : State), exec i s = .next t → i ≠ .snapshot →
      (∀ r, i ≠ .powerOn r ∧ i ≠ .supplyLow r ∧ i ≠ .pinReset r) → t.prot.snapshot = s.prot.snapshot) ∧
  (∀ (s : State) (r : Option Board), ∃ t₁ t₂ t₃, exec (.powerOn r) s = .next t₁ ∧ exec (.supplyLow r) s = .next t₂ ∧
      exec (.pinReset r) s = .next t₃ ∧ t₁.prot.snapshot = none ∧ t₂.prot.snapshot = none ∧ t₃.prot.snapshot = none)

/-- CLEAR_ENERGY, in both authorities: a port number outside 1..4 or above the strap port count is refused with BAD_PORT and
no counter changes; otherwise the port's W and F become 0, in any port state, and the reply is OK.  Nothing else moves, the
snapshot record among it (R159). -/
def Obligations.ClearEnergyClearsWAndF : Prop :=
  ∀ (s : State) (rest : List QueueEntry) (b : Byte), s.turn .clearEnergy [b] rest →
    ((∀ p : PortId, b.toNat = p.number → s.mode.straps.portCount < p.number) →
      exec (.clearEnergy b) s = .next (s.replied rest .clearEnergy .badPort []).refresh) ∧
    (∀ p : PortId, b.toNat = p.number → p.number ≤ s.mode.straps.portCount →
      exec (.clearEnergy b) s = .next
        ((s.modMeter p fun m => { m with whole := 0, fine := 0 }).replied rest .clearEnergy .ok []).refresh)

/-- CLEAR_EVENTS clears each listed flag and keeps every other, unlocks the capture of each port whose DROOP is listed and touches
no other, and is answered OK.  SET_EVENT_MASK writes the mask of every flag from its bit and is answered OK; the flags are not
touched (R156, R189, R190). -/
def Obligations.EventFlagsAndTheirMask : Prop :=
  (∀ (s : State) (rest : List QueueEntry) (v : Word32), s.turn .clearEvents (be32 v.toNat) rest →
      ∃ t, exec (.clearEvents v) s = .next t ∧
        (∀ (i : Fin 30) (f : Flag), Flag.all[i]? = some f →
          t.host.flags.get f = (s.host.flags.get f && !v.getLsbD i)) ∧
        (∀ p : PortId, t.meter p =
          if v.getLsbD (6 * (p.number - 1) + 4) then
            { s.meter p with capture := (s.meter p).capture.map fun c => { c with locked := false } }
          else s.meter p) ∧
        t.host.mask = s.host.mask ∧ t.host.queue = rest ∧
        t.host.reply = some ⟨some 0x14#8, .ok, []⟩ ∧ t.units = s.units ∧ t.path.port = s.path.port ∧
        t.path.a = s.path.a ∧ t.path.b = s.path.b ∧ t.arb = s.arb ∧ t.mode = s.mode) ∧
  (∀ (s : State) (rest : List QueueEntry) (v : Word32), s.turn .setEventMask (be32 v.toNat) rest →
      ∃ m : FlagSet, (∀ (i : Fin 30) (f : Flag), Flag.all[i]? = some f → m.get f = v.getLsbD i) ∧
        exec (.setEventMask v) s = .next
          ({ s with host := { s.host with mask := m } }.replied rest .setEventMask .ok []).refresh)

/-- SLEEP is checked in the order RANGE, BUSY, AWAKE; a refusal changes nothing, and an accepted SLEEP stores the wake set
and makes the part DORMANT (R175).
The model's own part: assumption log 15.  The AWAKE clause for LINK is the model's choice there (PRESUMED): an entry still queued
counts as the request that LINK names, whatever its verdict. -/
def Obligations.SleepChecksAndSleeps : Prop :=
  ∀ (s : State) (rest : List QueueEntry) (b : Byte), s.turn .sleep [b] rest →
    ((b = 0 ∨ 64 ≤ b.toNat) → exec (.sleep b) s = .next (s.replied rest .sleep .range []).refresh) ∧
    (b ≠ 0 → b.toNat < 64 →
      let w : WakeSet := ⟨b.getLsbD 0, b.getLsbD 1, b.getLsbD 2, b.getLsbD 3, b.getLsbD 4, b.getLsbD 5⟩
      let busy := s.arb.inService.isSome = true ∨ ∃ p, (s.unit p).state = .debounce ∨ (s.unit p).state = .discover ∨
        (s.unit p).state = .claiming ∨ (s.unit p).state = .switching ∨
        ((s.unit p).state = .faulted ∧ (s.unit p).coolDownStart.isSome = true)
      let awake := (w.attachAny = true ∧ ∃ p, (s.unit p).state = .empty ∧ s.pins.presence.get p = true) ∨
        (w.detachFeed = true ∧ ∃ p, (s.portPath p).state = .closed ∧ s.pins.presence.get p = false) ∨
        (w.lineAny = true ∧ ∃ p, (s.unit p).line.reception ≠ .hunting ∧ (s.unit p).mode = .smart ∧
          ((s.unit p).state = .standby ∨ (s.unit p).state = .feeding)) ∨
        (w.link = true ∧ (rest ≠ [] ∨ s.host.reception ≠ .hunting)) ∨
        (w.railLow = true ∧ s.prot.railAsserted = some true)
      (busy → exec (.sleep b) s = .next (s.replied rest .sleep .busy []).refresh) ∧
      (¬busy → awake → exec (.sleep b) s = .next (s.replied rest .sleep .awake []).refresh) ∧
      (¬busy → ¬awake → exec (.sleep b) s = .next
        ({ s with mode := { s.mode with power := .dormant, wakeSet := some w } }.replied rest .sleep .ok
          []).refresh))

/-- The SOFT reset acts when the reply to SOFT_RESET has been sent: the cause is SOFT, the authority AUTONOMOUS with D and L
at the class, the silence timer off, the flags, the mask and the queue clear, CHANGE GLOBAL alone pending, no rebalance in
service and one that was recorded as ABANDONED; ports in OFF, EMPTY, STANDBY, FEEDING and FAULTED, trim, straps, energy,
captures, the snapshot and the time base are kept.  A debounce begins again where presence is asserted; a discovery begins again,
behind the part's break, with a Basic contract kept; a port in CLAIMING or SWITCHING gets the break and enters DISCOVER, or
STANDBY or FEEDING where it does not speak, its contract ended with its path, or that of a sole feed demoted to Basic, with no
claim for it.  The other channels stay bound and lose no draw limit (R13, R16, R66, R74, R76, R91, R114, R127, R134, R143 to R146,
R174, R192).
The model's own part: assumption log 10. -/
def Obligations.SoftResetActsAfterItsReply : Prop :=
  ∀ (s : State) (r : Reply), s.host.reply = some r → r.kind = some 0x18#8 → r.status = .ok →
    ∃ t, exec .replySent s = .next t ∧ t.mode = { s.mode with
        cause := .soft, authority := .autonomous, demand := s.classPower, limit := s.classPower
        silenceTimeout := 0, silenceElapsed := none, power := .active, wakeSet := none } ∧
      t.arb.pending = EntrySet.empty.put ⟨.change, .whole⟩ true ∧ t.arb.inService = none ∧
      t.arb.gainMasked = false ∧ t.arb.changeMasked = false ∧ t.arb.halted = false ∧
      t.arb.lastOutcome = (match s.arb.inService with
        | some x => some ⟨x.taken, .abandoned, x.stepsDone, s.clock.base⟩
        | none => s.arb.lastOutcome) ∧
      t.host.queue = [] ∧ t.host.reply = none ∧ t.host.flags = .all false ∧ t.host.mask = .all false ∧
      t.host.reception = s.host.reception ∧ t.host.readyLine = true ∧ t.host.attentionLine = false ∧
      t.clock = s.clock ∧ t.pins = s.pins ∧ t.prot.snapshot = s.prot.snapshot ∧
      t.prot.railAsserted = s.prot.railAsserted ∧ t.path.batteryPresent = s.path.batteryPresent ∧
      (∀ p, (t.meter p).whole = (s.meter p).whole ∧ (t.meter p).fine = (s.meter p).fine ∧
        (t.meter p).capture = (s.meter p).capture) ∧
      (∀ p, (s.unit p).state = .off ∨ (s.unit p).state = .empty ∨ (s.unit p).state = .standby ∨
        (s.unit p).state = .feeding ∨ (s.unit p).state = .faulted →
        t.unit p = s.unit p ∧ t.portPath p = s.portPath p ∧ t.meter p = s.meter p) ∧
      (∀ p, (s.unit p).state = .debounce → KeepsTerms s t p ∧ t.unit p = { s.unit p with
        presence := if (s.unit p).isPresent then some ⟨true, s.clock.base⟩ else (s.unit p).presence }) ∧
      (∀ p, (s.unit p).state = .discover → SoftDiscovers s t p ∧ KeepsTerms s t p) ∧
      (∀ p, (s.unit p).SoftRestarts → SoftDiscovers s t p ∧
        ((s.unit p).contract = none → KeepsTerms s t p) ∧
        ((s.unit p).contract.isSome = true → (s.SoftSole p → TermsDemoted s t p) ∧
          (¬s.SoftSole p → TermsEnded s t p))) ∧
      (∀ c, (∀ p, (s.chan c).bound = some p → ¬((s.unit p).SoftRestarts ∧ (s.unit p).contract.isSome = true)) →
        (t.chan c).bound = (s.chan c).bound ∧ (s.chan c).draw ≤ (t.chan c).draw) ∧
      ((∀ p, (s.unit p).SoftRestarts → (s.unit p).contract = none) →
        t.path.a = s.path.a ∧ t.path.b = s.path.b)

/-- SET_PORT in DIRECTED authority on a port that exists: a rank above 3 or a mode that is neither is RANGE, another mode on a port
that is not OFF is NOT_OFF, and neither changes anything; otherwise the three fields are written, the derate between 25 and
100, and CHANGE is posted for the port where rank or derate has moved.  On a port with no contract and bound to no channel
nothing else moves; a lowering of a bound port's derate cuts the channel's draw limit at once to the new Ider, and posts SHED
GLOBAL where the contracts add up to more than L; a raising of it is followed by the raise, with the new Ider (R90, R137, R139,
R141). -/
def Obligations.SetPortWritesTheSettings : Prop :=
  (∀ (s : State) (rest : List QueueEntry) (b rank derate mode : Byte) (p : PortId),
      s.turn .setPort [b, rank, derate, mode] rest → s.mode.authority = .directed →
      b.toNat = p.number → p.number ≤ s.mode.straps.portCount →
      ((3 < rank.toNat ∨ 1 < mode.toNat) →
        exec (.setPort b rank derate mode) s = .next (s.replied rest .setPort .range []).refresh) ∧
      ∀ m : PortMode, (mode = 0 ∧ m = .smart ∨ mode = 1 ∧ m = .basicOnly) → rank.toNat ≤ 3 →
        (m ≠ (s.unit p).mode → (s.unit p).state ≠ .off →
          exec (.setPort b rank derate mode) s = .next (s.replied rest .setPort .notOff []).refresh) ∧
        ((m = (s.unit p).mode ∨ (s.unit p).state = .off) →
          ∃ t, exec (.setPort b rank derate mode) s = .next t ∧
            t.unit p = { s.unit p with
              rank := rank.toNat, derate := min 100 (max 25 derate.toNat), mode := m } ∧
            (∀ q, q ≠ p → t.unit q = s.unit q) ∧ t.host.queue = rest ∧ t.host.flags = s.host.flags ∧
            t.host.reply = some ⟨some 0x09#8,
              if derate.toNat < 25 ∨ 100 < derate.toNat then .clamped else .ok, []⟩ ∧
            t.prot = s.prot ∧ t.mode = s.mode ∧ t.path.port = s.path.port ∧
            ((s.unit p).rank = rank.toNat → (s.unit p).derate = (t.unit p).derate →
              t.arb = s.arb ∧ t.path.a = s.path.a ∧ t.path.b = s.path.b) ∧
            ((s.unit p).rank ≠ rank.toNat ∨ (s.unit p).derate ≠ (t.unit p).derate →
              t.arb.pending.has ⟨.change, .port p⟩ = true) ∧
            ((s.unit p).contract = none → s.channelOf p = none →
              t.path.a = s.path.a ∧ t.path.b = s.path.b))) ∧
  (∀ (s : State) (rest : List QueueEntry) (b rank derate mode : Byte) (p : PortId) (c : ChannelId),
      s.turn .setPort [b, rank, derate, mode] rest → s.mode.authority = .directed →
      b.toNat = p.number → p.number ≤ s.mode.straps.portCount → rank.toNat ≤ 3 →
      (mode = 0 ∧ (s.unit p).mode = .smart ∨ mode = 1 ∧ (s.unit p).mode = .basicOnly) →
      (s.unit p).contract.isSome = true → s.channelOf p = some c →
      min 100 (max 25 derate.toNat) < (s.unit p).derate →
      ∃ t, exec (.setPort b rank derate mode) s = .next t ∧
        (t.chan c).draw = min (((s.portPath p).offerCurrent.getD 0) * min 100 (max 25 derate.toNat) / 1000 * 10)
          (s.chan c).draw ∧
        (t.chan c).bound = (s.chan c).bound ∧ t.chan c.other = s.chan c.other ∧
        t.arb.pending.has ⟨.change, .port p⟩ = true ∧
        (s.mode.limit < s.contractSum → t.arb.pending.has ⟨.shed, .whole⟩ = true) ∧
        (s.contractSum ≤ s.mode.limit →
          t.arb.pending.has ⟨.shed, .whole⟩ = s.arb.pending.has ⟨.shed, .whole⟩)) ∧
  (∀ (s : State) (rest : List QueueEntry) (b rank derate mode : Byte) (p : PortId) (c : ChannelId),
      s.turn .setPort [b, rank, derate, mode] rest → s.mode.authority = .directed →
      b.toNat = p.number → p.number ≤ s.mode.straps.portCount → rank.toNat ≤ 3 →
      (mode = 0 ∧ (s.unit p).mode = .smart ∨ mode = 1 ∧ (s.unit p).mode = .basicOnly) →
      s.channelOf p = some c → (s.unit p).derate < min 100 (max 25 derate.toNat) →
      ∃ t, exec (.setPort b rank derate mode) s = .next t ∧
        let written : State := s.modUnit p fun u => { u with
          rank := rank.toNat, derate := min 100 (max 25 derate.toNat) }
        t.units = written.units ∧ t.path.a = written.raise.path.a ∧ t.path.b = written.raise.path.b ∧
        s.path.a.draw ≤ t.path.a.draw ∧ s.path.b.draw ≤ t.path.b.draw ∧ t.path.port = s.path.port ∧
        Posted s t [⟨.change, .port p⟩])

/-- PORT_ENABLE brings a port out of OFF into EMPTY, or DEBOUNCE counted from the request where its presence line is asserted; a port
in any other state is answered OK with no change.  The line is taken as it reads, the part's own break apart, which its release
ends.  PORT_RESTART and PORT_DISABLE of a port in OFF are answered OK, and of a sole feed refused with SOLE_FEED; neither
changes anything (R71, R72, R88, R89, R116, R143).
The model's own part: assumption log 20. -/
def Obligations.PortEnableLeavesOff : Prop :=
  (∀ (s : State) (rest : List QueueEntry) (b : Byte) (p : PortId), s.turn .portEnable [b] rest →
      b.toNat = p.number → p.number ≤ s.mode.straps.portCount →
      ((s.unit p).state ≠ .off → exec (.portEnable b) s = .next (s.replied rest .portEnable .ok []).refresh) ∧
      ((s.unit p).state = .off →
        exec (.portEnable b) s = .next
          ((s.modUnit p fun u => { u with
            enabled := true
            state := if s.pins.presence.get p then .debounce else .empty
            presence := some ⟨s.pins.presence.get p, s.clock.base⟩
            line := if u.line.isBreaking then u.line
              else if s.pins.lineLow.get p then
                { u.line with lowStart := some s.clock.bit, breakReported := false }
              else { u.line with quietStart := some s.clock.bit } }).replied rest .portEnable .ok []).refresh)) ∧
  (∀ (s : State) (rest : List QueueEntry) (b : Byte) (p : PortId), b.toNat = p.number →
      p.number ≤ s.mode.straps.portCount →
      ∀ (i : Instr) (r : Request),
        (i = .portRestart b ∧ r = .portRestart ∨ i = .portDisable b ∧ r = .portDisable) → s.turn r [b] rest →
        ((s.unit p).state = .off → exec i s = .next (s.replied rest r .ok []).refresh) ∧
        ((s.unit p).state ≠ .off → (s.portPath p).state = .closed →
          (∀ q, q ≠ p → (s.portPath q).state ≠ .closed) → s.path.batteryPresent = some false →
          exec i s = .next (s.replied rest r .soleFeed []).refresh))

/-- PORT_DISABLE of a port that is in service and no sole feed takes it to OFF with enabled no: its dialogue, contract, table,
records, counts and timers are gone, rank, derate and mode are kept, and LOSS is posted where it was FEEDING, CHANGE GLOBAL
where it held a contract otherwise.  A step in flight on it is ABORTED, with no denial cap, and the Arbiter goes on; where it was
the plan's last, the rebalance completes (R55, R56, R71, R88, R89).
The model's own part: assumption log 8. -/
def Obligations.PortDisableTakesThePortOff : Prop :=
  ∀ (s : State) (rest : List QueueEntry) (b : Byte) (p : PortId), s.turn .portDisable [b] rest →
    b.toNat = p.number → p.number ≤ s.mode.straps.portCount → (s.unit p).state ≠ .off → s.soleFeed p = false →
    ∃ u t, exec (.portDisable b) s = .next t ∧ EndsStep s u t p .aborted ∧
      (u.unit p).state = .off ∧ (u.unit p).enabled = false ∧
      (u.unit p).contract = none ∧ (u.unit p).table = .empty ∧ (u.unit p).cable = none ∧
      (u.unit p).denialCap = none ∧ (u.unit p).droopCap = none ∧ (u.unit p).exchange = none ∧
      (u.unit p).resyncStart = none ∧ (u.unit p).presence = none ∧ (u.unit p).legacy = false ∧
      (u.unit p).restarts = 0 ∧ (u.unit p).trips = 0 ∧ (u.unit p).discoveryStart = none ∧
      (u.unit p).cleanRunStart = none ∧ (u.unit p).coolDownStart = none ∧
      (u.unit p).mode = (s.unit p).mode ∧ (u.unit p).rank = (s.unit p).rank ∧
      (u.unit p).derate = (s.unit p).derate ∧ KeepsOthers s u p ∧
      (u.meter p).whole = (s.meter p).whole ∧ (u.meter p).fine = (s.meter p).fine ∧
      (u.meter p).capture = (s.meter p).capture ∧ u.mode = s.mode ∧ u.host.queue = rest ∧
      u.host.reply = some ⟨some 0x0B#8, .ok, []⟩ ∧
      ((s.unit p).contract.isSome = true → (u.portPath p).state = .openPath ∧
        u.host.flags = s.host.flags.put (.port p .contract) true) ∧
      ((s.unit p).contract = none → u.path.port = s.path.port ∧ u.host.flags = s.host.flags) ∧
      u.arb.pending = (if (s.unit p).state = .feeding then s.arb.pending.put ⟨.loss, .port p⟩ true
        else if (s.unit p).contract.isSome then s.arb.pending.put ⟨.change, .whole⟩ true else s.arb.pending) ∧
      ∀ r, s.LastStepOn p r → t.Completed r .aborted

/-- PORT_RESTART of a port that is in service and no sole feed: EMPTY stays EMPTY; DEBOUNCE, or absent presence, begins a
debounce; every other state enters DISCOVER with entry 0 alone, no cable record and no caps.  Legacy becomes no, both counts
0, and the contract ends.  A BASIC_ONLY port sends no break and skips discovery, legacy, into STANDBY with GAIN.  A step in flight
on it is ABORTED, and the Arbiter goes on; where it was the plan's last, the rebalance completes (R55, R56, R74, R76, R88, R108).
The model's own part: assumption log 8, 11. -/
def Obligations.PortRestartBeginsAfresh : Prop :=
  (∀ (s : State) (rest : List QueueEntry) (b : Byte) (p : PortId), s.turn .portRestart [b] rest →
      b.toNat = p.number → p.number ≤ s.mode.straps.portCount → (s.unit p).state ≠ .off → s.soleFeed p = false →
      (s.unit p).mode = .smart →
      ∃ u t, exec (.portRestart b) s = .next t ∧ EndsStep s u t p .aborted ∧
        (u.unit p).state = (if (s.unit p).state = .empty then .empty
          else if (s.unit p).state = .debounce ∨ (s.unit p).isPresent = false then .debounce else .discover) ∧
        (u.unit p).enabled = (s.unit p).enabled ∧ (u.unit p).mode = (s.unit p).mode ∧
        (u.unit p).rank = (s.unit p).rank ∧ (u.unit p).derate = (s.unit p).derate ∧
        (u.unit p).legacy = false ∧ (u.unit p).restarts = 0 ∧ (u.unit p).trips = 0 ∧
        (u.unit p).contract = none ∧ (u.unit p).cleanRunStart = none ∧ (u.unit p).coolDownStart = none ∧
        (u.unit p).resyncStart = none ∧
        ((s.unit p).state = .debounce → (s.unit p).isPresent = true →
          (u.unit p).presence = some ⟨true, s.clock.base⟩) ∧
        ((u.unit p).state = .discover → (u.unit p).table = discoverTable ∧ (u.unit p).cable = none ∧
          (u.unit p).denialCap = none ∧ (u.unit p).droopCap = none ∧
          (u.unit p).discoveryStart = some s.clock.base ∧ (u.unit p).exchange = some (.query 1 none)) ∧
        ((s.unit p).state.isProven = true → (u.unit p).line.isBreaking = true) ∧ KeepsOthers s u p ∧
        (u.meter p).whole = (s.meter p).whole ∧ (u.meter p).fine = (s.meter p).fine ∧
        (u.meter p).capture = (s.meter p).capture ∧ u.mode = s.mode ∧ u.host.queue = rest ∧
        u.host.reply = some ⟨some 0x0C#8, .ok, []⟩ ∧
        u.arb.pending = (if (s.unit p).state = .feeding then s.arb.pending.put ⟨.loss, .port p⟩ true
          else if (s.unit p).contract.isSome then s.arb.pending.put ⟨.change, .whole⟩ true else s.arb.pending) ∧
        ∀ r, s.LastStepOn p r → t.Completed r .aborted) ∧
  (∀ (s : State) (rest : List QueueEntry) (b : Byte) (p : PortId), s.turn .portRestart [b] rest →
      b.toNat = p.number → p.number ≤ s.mode.straps.portCount → (s.unit p).state.isProven = true →
      s.soleFeed p = false → (s.unit p).mode = .basicOnly → (s.unit p).isPresent = true →
      ∃ u t, exec (.portRestart b) s = .next t ∧ EndsStep s u t p .aborted ∧
        (u.unit p).state = .standby ∧ (u.unit p).legacy = true ∧
        (u.unit p).restarts = 0 ∧ (u.unit p).trips = 0 ∧ (u.unit p).contract = none ∧
        (u.unit p).exchange = none ∧ (u.unit p).table = discoverTable ∧ (u.unit p).cable = none ∧
        (u.unit p).line.isBreaking = (s.unit p).line.isBreaking ∧
        u.arb.pending.has ⟨.gain, .port p⟩ = true ∧ u.mode = s.mode ∧ u.host.queue = rest ∧
        u.host.reply = some ⟨some 0x0C#8, .ok, []⟩ ∧ KeepsOthers s u p ∧
        ∀ r, s.LastStepOn p r → t.Completed r .aborted)

/-! ### The host link -/

/-- A start byte while HUNTING begins a frame and wakes a DORMANT part that selects LINK; inside a frame it is data, a LEN above
60 in its first place, and through STARTING nothing is taken.  A gap of more than 5 ms, which is 6 on the time base that measures
it (assumption log 5), or a framing error inside a request frame discards the partial frame and sets LINK_ERROR, and touches
neither the queue nor the silence timer's restart; while HUNTING a framing error sets last byte end alone (R147, R165, R177,
R180).
The model's own part: assumption logs 1 and 5. -/
def Obligations.RequestFramesBeginAndBreakOff : Prop :=
  (∀ s : State,
      (s.mode.power ≠ .starting → s.host.reception = .hunting →
        ∃ t, exec .hostStartByte s = .next t ∧ t.host.reception = .inFrame [] ∧
          t.host.lastByteEnd = some s.clock.base ∧ t.host.queue = s.host.queue ∧ t.host.reply = s.host.reply ∧
          t.units = s.units ∧ t.arb = s.arb ∧ t.prot = s.prot ∧ t.path.port = s.path.port ∧
          (s.mode.power = .dormant ∧ s.mode.wakeSet.any (·.link) = true →
            t.mode = { s.mode with power := .active, wakeSet := none } ∧
            t.host.flags = s.host.flags.put (.whole .wake) true) ∧
          (¬(s.mode.power = .dormant ∧ s.mode.wakeSet.any (·.link) = true) →
            t.mode = s.mode ∧ t.host.flags = s.host.flags)) ∧
      (s.mode.power = .starting → exec .hostStartByte s = .next s.refresh)) ∧
  (∀ (s : State) (taken : List Byte), s.mode.power ≠ .starting → s.host.reception = .inFrame taken →
      (readRequest (taken ++ [0xA5#8]) = none → exec .hostStartByte s = .next { s with host := { s.host with
        reception := .inFrame (taken ++ [0xA5#8]), lastByteEnd := some s.clock.base } }.refresh) ∧
      (readRequest (taken ++ [0xA5#8]) ≠ none →
        exec .hostStartByte s = exec (.requestFrameComplete (taken ++ [0xA5#8])) s) ∧
      (taken = [] → s.host.queue.length < 4 → exec .hostStartByte s = .next { s with host := { s.host with
        reception := .hunting, lastByteEnd := some s.clock.base
        queue := s.host.queue ++ [(⟨.badFrame, none, []⟩ : QueueEntry)] } }.refresh)) ∧
  (∀ (s : State) (bytes : List Byte) (e : Time),
      (s.host.reception = .inFrame bytes → s.host.lastByteEnd = some e →
        ∃ t, exec .hostFrameGapTimeout s = .next t ∧ 5 < (t.clock.base - e).toNat ∧
          (5 < (s.clock.base - e).toNat → t.clock = s.clock) ∧
          ((s.clock.base - e).toNat ≤ 5 → t.clock.base = e + 6) ∧ t.host.reception = .hunting ∧
          t.host.flags = s.host.flags.put (.whole .linkError) true ∧ t.host.queue = s.host.queue ∧
          t.host.reply = s.host.reply ∧ KeepsMode s t ∧ t.units = s.units ∧ t.arb = s.arb ∧ t.prot = s.prot) ∧
      (s.mode.power ≠ .starting → s.host.reception = .inFrame bytes →
        exec .hostFramingError s = .next { s with host := { s.host with
          reception := .hunting, lastByteEnd := some s.clock.base
          flags := s.host.flags.put (.whole .linkError) true } }.refresh) ∧
      (s.mode.power ≠ .starting → s.host.reception = .hunting →
        exec .hostFramingError s = .next { s with host := { s.host with
          lastByteEnd := some s.clock.base } }.refresh))

/-- A request frame that completes becomes an entry with the verdict of R181's table: BAD_FRAME without a kind for a LEN above
60, BAD_FRAME where the check fails, UNKNOWN for no kind of the catalogue, BAD_FRAME for a LEN that does not suit the kind,
else GOOD with its payload. -/
def Obligations.CompleteFramesGetTheirVerdict : Prop :=
  ∀ (len : Byte) (kind check : Byte) (payload : List Byte),
    (60 < len.toNat → readRequest [len] = some (⟨.badFrame, none, []⟩, false)) ∧
    (len.toNat = payload.length → payload.length ≤ 60 →
      let frame := len :: kind :: (payload ++ [check])
      ((frame.map BitVec.toNat).sum % 256 ≠ 0 →
        readRequest frame = some (⟨.badFrame, some kind, []⟩, false)) ∧
      ((frame.map BitVec.toNat).sum % 256 = 0 →
        ((∀ r : Request, r.code ≠ kind) → readRequest frame = some (⟨.unknown, some kind, []⟩, true)) ∧
        (∀ r : Request, r.code = kind →
          (r.length ≠ payload.length → readRequest frame = some (⟨.badFrame, some kind, []⟩, true)) ∧
          (r.length = payload.length →
            readRequest frame = some (⟨.good r, some kind, payload⟩, true)))))

/-- A complete frame's entry is placed at the tail of a queue that holds fewer than four, restarting the silence timer where
its check passed; offered to a full queue it is discarded and OVERRUN is set (R173, R181, R182).
The model's own part: assumption log 2. -/
def Obligations.CompleteFramesAreOffered : Prop :=
  ∀ (s : State) (bytes taken : List Byte) (e : QueueEntry) (ok : Bool), readRequest bytes = some (e, ok) →
    s.mode.power ≠ .starting → s.host.reception = .inFrame taken →
    (s.host.queue.length < 4 →
      exec (.requestFrameComplete bytes) s = .next { s with
        mode := { s.mode with silenceElapsed :=
          if ok then s.mode.silenceElapsed.map fun _ => 0 else s.mode.silenceElapsed }
        host := { s.host with
          reception := .hunting, lastByteEnd := some s.clock.base, queue := s.host.queue ++ [e] } }.refresh) ∧
    (4 ≤ s.host.queue.length →
      exec (.requestFrameComplete bytes) s = .next { s with host := { s.host with
        reception := .hunting, lastByteEnd := some s.clock.base
        flags := s.host.flags.put (.whole .overrun) true } }.refresh)

/-- A BAD_FRAME or UNKNOWN entry at the head is served when the part is ACTIVE with no reply in progress: it leaves the queue and is
answered with its verdict and no payload.  SOFT_RESET is answered OK and nothing else moves; REPLY_SENT removes any other
reply in progress and moves nothing else (R174, R184). -/
def Obligations.RepliesAreFormedAndSent : Prop :=
  (∀ (s : State) (e : QueueEntry) (rest : List QueueEntry) (status : Status),
      s.host.queue = e :: rest → s.mode.power = .active → s.host.reply = none →
      (e.verdict = .badFrame ∧ status = .badFrame ∨ e.verdict = .unknown ∧ status = .unknown) →
      exec .serveErrorEntry s = .next { s with host := { s.host with
        queue := rest, reply := some ⟨e.kind, status, []⟩ } }.refresh) ∧
  (∀ (s : State) (rest : List QueueEntry), s.turn .softReset [] rest →
    exec .softReset s = .next (s.replied rest .softReset .ok []).refresh) ∧
  (∀ (s : State) (r : Reply), s.host.reply = some r → ¬(r.kind = some 0x18#8 ∧ r.status = .ok) →
    exec .replySent s = .next { s with host := { s.host with reply := none } }.refresh)

/-! ### Presence and the port's own timers -/

/-- Each channel is bound to at most one port and each port to at most one channel; a path is other than OPEN only while its
port holds a contract and is bound; and an exchange is outstanding only in its own states.  A plan step's claim, a READY or SETTLE
wait and a precharge stand only while a step is in flight on their port.  Every step keeps this, and the reset state has it.  With the
battery absent, the last CLOSED path opens only through an over-current trip, a detach, or a POWER_ON, SUPPLY_LOW or PIN reset (R52,
R92, R101, R129, R131, R143). -/
def Obligations.PathsLawIsInvariant : Prop :=
  (State.reset.PathsLawful ∧ ∀ s t : State, s.PathsLawful → step s = .next t → t.PathsLawful) ∧
  (State.reset.StepsLawful ∧
    ∀ s t : State, s.PathsLawful → s.StepsLawful → step s = .next t → t.StepsLawful) ∧
  ∀ (i : Instr) (s t : State) (q : PortId), s.PathsLawful → s.path.batteryPresent = some false →
    (s.portPath q).state = .closed → (∀ p, (t.portPath p).state ≠ .closed) → exec i s = .next t →
    (∃ p v m, i = .sample p v m ∧ s.soleFeed p = true ∧ (t.unit p).state = .faulted) ∨
      (∃ p, i = .detach p ∧ s.soleFeed p = true ∧ (t.unit p).state = .empty) ∨
      ∃ r, i = .powerOn r ∨ i = .supplyLow r ∨ i = .pinReset r

/-- PRESENCE_ASSERT begins a debounce in EMPTY, waking a DORMANT part that selects ATTACH_ANY, and begins one again in
DEBOUNCE; elsewhere, and at a line already asserted, no state moves.  PRESENCE_LOSS only begins the absence.  DEBOUNCE_END,
50 ms after the assertion, enters DISCOVER with ATTACH and a QUERY, or skips discovery on a BASIC_ONLY port (R72, R74, R76,
R177).
The model's own part: assumption log 1, 2. -/
def Obligations.PresenceIsDebounced : Prop :=
  (∀ (s : State) (p : PortId), ∃ t, exec (.presenceAssert p) s = .next t ∧ t.pins.presence.get p = true ∧
    t.clock = s.clock ∧ KeepsOthers s t p ∧ KeepsPower s t ∧ KeepsLink s t ∧
    t.unit p = { s.unit p with state := (t.unit p).state, presence := (t.unit p).presence } ∧
    ((s.unit p).state = .empty → (s.unit p).presence.map Presence.asserted = some false →
      (t.unit p).state = .debounce ∧ (t.unit p).presence = some ⟨true, s.clock.base⟩ ∧
      (s.mode.power = .dormant ∧ s.mode.wakeSet.any (·.attachAny) = true →
        t.mode = { s.mode with power := .active, wakeSet := none } ∧
        t.host.flags = s.host.flags.put (.whole .wake) true)) ∧
    ((s.unit p).state = .debounce → (s.unit p).presence.map Presence.asserted = some false →
      (t.unit p).presence = some ⟨true, s.clock.base⟩) ∧
    ((s.unit p).state ≠ .empty →
      (t.unit p).state = (s.unit p).state ∧ t.mode = s.mode ∧ t.host.flags = s.host.flags) ∧
    ((s.unit p).state = .off ∨ (s.unit p).isPresent = true → t.unit p = s.unit p)) ∧
  (∀ (s : State) (p : PortId), ∃ t, exec (.presenceLoss p) s = .next t ∧ t.pins.presence.get p = false ∧
    t.clock = s.clock ∧ t.mode = s.mode ∧ t.host.flags = s.host.flags ∧ KeepsOthers s t p ∧ KeepsPower s t ∧
    KeepsLink s t ∧ t.unit p = { s.unit p with presence := (t.unit p).presence } ∧
    ((s.unit p).state ≠ .off → (s.unit p).isPresent = true →
      (t.unit p).presence = some ⟨false, s.clock.base⟩)) ∧
  (∀ (s : State) (p : PortId) (start : Time), (s.unit p).state = .debounce →
    (s.unit p).presence = some ⟨true, start⟩ → (s.unit p).contract = none → (s.unit p).legacy = false →
    ∃ t, exec (.debounceEnd p) s = .next t ∧ 50 ≤ (t.clock.base - start).toNat ∧
      (50 ≤ (s.clock.base - start).toNat → t.clock = s.clock) ∧
      t.host.flags = s.host.flags.put (.port p .attach) true ∧ KeepsOthers s t p ∧ KeepsMode s t ∧
      KeepsLink s t ∧ t.path.port = s.path.port ∧ t.prot = s.prot ∧ (t.unit p).table = discoverTable ∧
      (t.unit p).cable = none ∧ (t.unit p).denialCap = none ∧ (t.unit p).droopCap = none ∧
      ((s.unit p).mode = .smart → (t.unit p).state = .discover ∧ t.arb = s.arb ∧
        (t.unit p).discoveryStart = some t.clock.base ∧ (t.unit p).queryEnded = false ∧
        (t.unit p).legacy = false ∧ (t.unit p).exchange = some (.query 1
          (if (s.unit p).line.isBreaking then none else some t.clock.base))) ∧
      ((s.unit p).mode = .basicOnly → (t.unit p).state = .standby ∧ (t.unit p).legacy = true ∧
        (t.unit p).exchange = none ∧ (t.unit p).discoveryStart = none ∧
        t.arb.pending = s.arb.pending.put ⟨.gain, .port p⟩ true))

/-- DETACH, 5 ms into an absence, in DEBOUNCE through FAULTED: the port is in EMPTY with no contract, no exchange, no records
and counts of 0, DETACH is set, and LOSS is posted where it was FEEDING, else CHANGE GLOBAL.  A step in flight on it is ABORTED and
the Arbiter goes on; where it was the plan's last, the rebalance completes.  A detach under a CLOSED path wakes a DORMANT part that
selects DETACH_FEED (R56, R61, R73, R177).
The model's own part: assumption log 1, 2, 8. -/
def Obligations.DetachEmptiesThePort : Prop :=
  ∀ (s : State) (p : PortId) (m : Presence), (s.unit p).presence = some m → (s.unit p).state ≠ .off →
    (s.unit p).state ≠ .empty →
    ∃ t, exec (.detach p) s = .next t ∧
      (s.stepOn p = false ∨ (∃ r, s.LastStepOn p r) →
        (t.unit p).state = .empty ∧ (t.unit p).contract = none ∧ (t.unit p).exchange = none ∧
        (t.unit p).table = .empty ∧ (t.unit p).cable = none ∧ (t.unit p).denialCap = none ∧
        (t.unit p).droopCap = none ∧ (t.unit p).resyncStart = none ∧ (t.unit p).legacy = false ∧
        (t.unit p).restarts = 0 ∧ (t.unit p).trips = 0 ∧ (t.unit p).coolDownStart = none ∧
        (t.unit p).enabled = (s.unit p).enabled ∧ (t.unit p).mode = (s.unit p).mode ∧
        (t.unit p).rank = (s.unit p).rank ∧ (t.unit p).derate = (s.unit p).derate ∧
        t.pins.presence.get p = false ∧
        (∃ x, (t.unit p).presence = some x ∧ x.asserted = false ∧ 5 ≤ (t.clock.base - x.start).toNat) ∧
        KeepsOthers s t p ∧ KeepsLink s t ∧ t.host.flags.get (.port p .detach) = true ∧
        ((s.unit p).contract.isSome = true → (t.portPath p).state = .openPath ∧
          t.host.flags.get (.port p .contract) = true) ∧
        (t.meter p).whole = (s.meter p).whole ∧ (t.meter p).fine = (s.meter p).fine ∧
        (t.meter p).capture = (s.meter p).capture) ∧
      (s.stepOn p = false → t.arb.inService.isSome = s.arb.inService.isSome ∧ t.arb.pending = s.arb.pending.put
        (if (s.unit p).state = .feeding then ⟨.loss, .port p⟩ else ⟨.change, .whole⟩) true) ∧
      (∀ r, s.LastStepOn p r → t.Completed r .aborted) ∧
      (∃ u, EndsStep s u t p .aborted ∧ (u.unit p).state = .empty ∧ (u.unit p).contract = none ∧
        (u.unit p).exchange = none ∧ (u.unit p).table = .empty ∧ (u.unit p).legacy = false ∧
        (u.unit p).restarts = 0 ∧ (u.unit p).trips = 0 ∧ KeepsOthers s u p ∧
        ((s.unit p).contract.isSome = true → (u.portPath p).state = .openPath) ∧
        u.arb.pending = s.arb.pending.put
          (if (s.unit p).state = .feeding then ⟨.loss, .port p⟩ else ⟨.change, .whole⟩) true) ∧
      let wakes := (s.portPath p).state = .closed ∧ s.mode.power = .dormant ∧
        s.mode.wakeSet.any (·.detachFeed) = true
      (wakes → t.mode = { s.mode with
          power := .active, wakeSet := none, silenceElapsed := t.mode.silenceElapsed } ∧
        t.host.flags.get (.whole .wake) = true) ∧
      (¬wakes → KeepsMode s t)

/-- DISCOVERY_TIMEOUT at 400 ms makes the port legacy, sets LEGACY, posts GAIN, and leaves DISCOVER for STANDBY, or for FEEDING
under a kept contract.  COOL_DOWN_END at 2000 ms enters DISCOVER, with a break on a SMART port.  CLEAN_RUN_END at 10,000 ms
sets the trip count of a CLOSED port to 0 (R76, R77, R86, R87).
The model's own part: assumption log 1. -/
def Obligations.PortTimersEnd : Prop :=
  (∀ (s : State) (p : PortId) (start : Time), (s.unit p).state = .discover → (s.unit p).speaks = true →
    (s.unit p).discoveryStart = some start → (s.unit p).table.gen = none →
    ∃ t, exec (.discoveryTimeout p) s = .next t ∧ 400 ≤ (t.clock.base - start).toNat ∧
      (400 ≤ (s.clock.base - start).toNat → t.clock = s.clock) ∧ (t.unit p).legacy = true ∧
      (t.unit p).state = (if (s.unit p).contract.isSome then .feeding else .standby) ∧
      (t.unit p).discoveryStart = none ∧ (t.unit p).exchange = none ∧ (t.unit p).table = (s.unit p).table ∧
      (t.unit p).contract = (s.unit p).contract ∧ t.host.flags = s.host.flags.put (.port p .legacy) true ∧
      t.arb.pending = s.arb.pending.put ⟨.gain, .port p⟩ true ∧ KeepsOthers s t p ∧ KeepsMode s t ∧
      KeepsLink s t ∧ t.path.port = s.path.port ∧ t.path.a = s.path.a ∧ t.path.b = s.path.b ∧
      t.prot = s.prot) ∧
  (∀ (s : State) (p : PortId) (start : Time), (s.unit p).state = .faulted →
    (s.unit p).coolDownStart = some start → (s.unit p).contract = none →
    ∃ t, exec (.coolDownEnd p) s = .next t ∧ 2000 ≤ (t.clock.base - start).toNat ∧
      (2000 ≤ (s.clock.base - start).toNat → t.clock = s.clock) ∧
      (t.unit p).state = (if (s.unit p).speaks then .discover else .standby) ∧
      ((s.unit p).mode = .smart → (t.unit p).line.isBreaking = true) ∧
      ((s.unit p).speaks = true → (t.unit p).exchange = some (.query 1 none) ∧ t.arb = s.arb) ∧
      ((s.unit p).speaks = false → (t.unit p).legacy = true ∧
        t.arb.pending = s.arb.pending.put ⟨.gain, .port p⟩ true) ∧
      (t.unit p).coolDownStart = none ∧ (t.unit p).trips = (s.unit p).trips ∧
      (t.unit p).table = discoverTable ∧ t.host.flags = s.host.flags ∧ KeepsOthers s t p ∧ KeepsMode s t ∧
      KeepsLink s t ∧ t.path.port = s.path.port ∧ t.prot = s.prot) ∧
  (∀ (s : State) (p : PortId) (start : Time), (s.portPath p).state = .closed →
    (s.unit p).cleanRunStart = some start →
    ∃ t, exec (.cleanRunEnd p) s = .next t ∧ 10000 ≤ (t.clock.base - start).toNat ∧
      (10000 ≤ (s.clock.base - start).toNat → t.clock = s.clock) ∧
      t.unit p = { s.unit p with trips := 0 } ∧ t.host.flags = s.host.flags ∧ KeepsOthers s t p ∧
      KeepsMode s t ∧ KeepsLink s t ∧ KeepsPower s t)

/-! ### The dialogue -/

/-- A delivered OFFERS is stored behind entry 0, each offer judged against the cable by the tests of R4 and R5; the droop cap and
the resync go, and the denial cap with the generation.  In STANDBY it posts CHANGE; in DISCOVER with the query ended it ends
discovery with GAIN; a FEEDING port whose contract it leaves VALID has a window opened and CHANGE posted, one it leaves INVALID
its draw limit cut to 900 mA and LOSS posted; VALID is what R17 says of the new table's entry at the contract's index.  One that
crosses an outstanding claim gives that up, its step FAILED; a return to Basic is claimed anew in the new generation (R2 to R6,
R14, R17, R18, R21, R22, R75, R97, R98, R138, R139).
The model's own part: assumption log 2, 8. -/
def Obligations.OffersAreStored : Prop :=
  (∀ (s : State) (p : PortId) (frame : List Byte) (gen : Gen) (kind : SupplyKind) (menu : List SentOffer),
    s.delivers p frame (.offers gen kind menu) → (s.unit p).line.isBreaking = false →
    (s.unit p).claims = false →
    ∃ t, exec (.offers p frame) s = .next t ∧ (t.unit p).table = ⟨basicEntry ::
        menu.map (judge (((s.unit p).cable.map CableRecord.voltage).getD 20000)), some gen, some kind⟩ ∧
      (t.unit p).table.entries[0]? = some ⟨.basic, .eligible, some 5000, some 900, none⟩ ∧
      (t.unit p).table.entries.length = menu.length + 1 ∧
      (∀ (n : Nat) (o : SentOffer), menu[n]? = some o → ∃ e, (t.unit p).table.entries[n + 1]? = some e ∧
        Judged (((s.unit p).cable.map CableRecord.voltage).getD 20000) o e) ∧
      (t.unit p).droopCap = none ∧ (t.unit p).resyncStart = none ∧
      (t.unit p).denialCap = (if (s.unit p).table.gen = some gen then (s.unit p).denialCap else none) ∧
      (t.unit p).line.reception = .hunting ∧ t.clock = s.clock ∧ KeepsOthers s t p ∧ KeepsMode s t ∧
      KeepsLink s t ∧ t.prot = s.prot ∧ t.host.flags = s.host.flags ∧
      ((s.unit p).contract = none → (s.unit p).state = .standby →
        (t.unit p).state = .standby ∧ t.arb.pending = s.arb.pending.put ⟨.change, .port p⟩ true) ∧
      ((s.unit p).contract = none → (s.unit p).state = .discover →
        ((s.unit p).queryEnded = true → (t.unit p).state = .standby ∧
          t.arb.pending = s.arb.pending.put ⟨.gain, .port p⟩ true) ∧
        ((s.unit p).queryEnded = false → (t.unit p).state = .discover ∧ t.arb = s.arb ∧
          (t.unit p).exchange = (s.unit p).exchange)) ∧
      (∀ k, (s.unit p).contract = some k → (s.unit p).state = .feeding → (t.unit p).state = .feeding ∧
        (k.kind = .basic → (t.unit p).contract = some { k with gen := some gen } ∧
          t.arb.pending = s.arb.pending.put ⟨.change, .port p⟩ true) ∧
        (k.kind ≠ .basic → let v := (t.unit p).table.verdict k
          (v = .valid ↔ (t.unit p).table.Validates k) ∧ (v = .invalid ↔ ¬(t.unit p).table.Validates k) ∧
          (t.unit p).contract = some { k with window := some ⟨s.clock.base, v⟩ } ∧
          (v = .valid → t.arb.pending = s.arb.pending.put ⟨.change, .port p⟩ true ∧ t.path.port = s.path.port ∧
            t.path.a = s.path.a ∧ t.path.b = s.path.b) ∧
          (v = .invalid → t.arb.pending.has ⟨.loss, .port p⟩ = true ∧
            (s.mode.limit < s.contractSum → t.arb.pending.has ⟨.shed, .whole⟩ = true) ∧
            ∀ c, s.channelOf p = some c → (t.chan c).draw = min 900 (s.chan c).draw ∧
              ((s.portPath p).state = .closed → (t.portPath p).ceiling = some (t.chan c).draw))))) ∧
  (∀ (s : State) (p : PortId) (frame : List Byte) (gen : Gen) (kind : SupplyKind) (menu : List SentOffer)
    (purpose : Purpose) (i c vop n : Nat) (g : Option Gen) (start : Time),
    s.delivers p frame (.offers gen kind menu) →
    (s.unit p).exchange = some (.claim purpose i c vop g n start) → (s.unit p).state = .claiming →
    ∃ t, exec (.offers p frame) s = .next t ∧
      (purpose ≠ .ret → (s.stepOn p = false ∨ ∃ r, s.LastStepOn p r) →
        (t.unit p).exchange = none ∧ (t.unit p).line.held = none ∧
        (t.unit p).state = (if (s.unit p).contract.isSome then .feeding else .standby) ∧
        (∀ k, (t.unit p).contract = some k → k.change = none) ∧ (t.unit p).table.gen = some gen ∧
        (t.unit p).table.supply = some kind ∧ KeepsOthers s t p ∧ KeepsMode s t ∧ KeepsLink s t ∧
        ((s.unit p).contract = none → t.arb.pending.has ⟨.change, .port p⟩ = true) ∧
        ∀ r, s.LastStepOn p r → t.Completed r .failed) ∧
      (purpose ≠ .ret → ∃ u, EndsStep s u t p .failed ∧ (u.unit p).exchange = none ∧
        (u.unit p).line.held = none ∧ (u.unit p).table.gen = some gen ∧
        (u.unit p).state = (if (s.unit p).contract.isSome then .feeding else .standby) ∧
        (∀ k, (u.unit p).contract = some k → k.change = none) ∧ KeepsOthers s u p ∧
        (s.stepOn p = true → (u.unit p).denialCap = (if (s.unit p).table.gen = some gen then
          some ⟨((s.unit p).contract.map Contract.power).getD 0, some gen⟩ else none))) ∧
      (purpose = .ret → ∀ k, (s.unit p).contract = some k → (t.unit p).state = .claiming ∧
        (t.unit p).exchange = some (.claim .ret 0 k.current 5000 (some gen) 1 t.clock.base) ∧
        (t.unit p).line.held = some (claimFrame 0 k.current 5000 (some gen)) ∧ KeepsOthers s t p))

/-- A GRANT that matches the outstanding claim ends it and sets the restart count to 0.  A NEW's claim becomes the contract and a
READY wait begins; a change's terms become the contract's, with a READY wait where voltage or current rises, a SETTLE wait where
the voltage falls, and else the step DONE, and a moved voltage sets the droop run count to 0; a return to Basic begins the
contract anew, and the step that its demotion failed has FAILED.  Where a step ends the Arbiter goes on.  A GRANT that does not
match does nothing to the port.  Nor does a GRANT or DENY that finds no claim outstanding, a DENY or READY of another generation,
a READY that finds no wait or a RATING that finds no QUERY: but for the line, and for a QUERY that waits for the end of the part's
break and is handed over at it (R9 to R11, R14, R54, R56, R84, R95, R96, R101, R104, R154).
The model's own part: assumption logs 1, 2, 12 and 18. -/
def Obligations.GrantsAreTaken : Prop :=
  (∀ (s : State) (p : PortId) (frame : List Byte) (m : Message) (i : Instr), s.delivers p frame m →
    (match m with
      | .grant _ _ _ => i = .grant p frame ∧ (s.unit p).claims = false
      | .deny gen _ => i = .deny p frame ∧ ∀ purpose x c vop g n start,
          (s.unit p).exchange = some (.claim purpose x c vop g n start) → g ≠ some gen
      | .ready gen => i = .ready p frame ∧ ∀ g start, (s.unit p).exchange = some (.ready g start) → g ≠ some gen
      | .rating _ _ => i = .rating p frame ∧ (s.unit p).queryAttempt = none
      | .offers _ _ _ => False) →
    ∃ t, exec i s = .next t ∧
      t.unit p = { s.unit p with line := (t.unit p).line, exchange := (t.unit p).exchange } ∧
      (∀ n, (s.unit p).line.isBreaking = true → (s.unit p).queryBehindBreak = some n →
        (t.unit p).exchange = some (.query n (some t.clock.base)) ∧ (t.unit p).line.held = some queryFrame) ∧
      ((s.unit p).line.isBreaking = false ∨ (s.unit p).queryBehindBreak = none →
        (t.unit p).exchange = (s.unit p).exchange ∧ (t.unit p).line.held = (s.unit p).line.held) ∧
      ((s.unit p).line.isBreaking = false → t.clock = s.clock ∧
        (t.unit p).line.transmitter = (s.unit p).line.transmitter) ∧
      (t.unit p).line.reception = .hunting ∧ t.host.flags = s.host.flags ∧ KeepsOthers s t p ∧
      KeepsMode s t ∧ KeepsPower s t ∧ KeepsLink s t) ∧
  ∀ (s : State) (p : PortId) (frame : List Byte) (gen : Gen) (index current : Nat) (purpose : Purpose) (vop attempt : Nat)
    (start : Time) (g : Option Gen) (i c : Nat), s.delivers p frame (.grant gen index current) →
    (s.unit p).exchange = some (.claim purpose i c vop g attempt start) →
    ∃ t, exec (.grant p frame) s = .next t ∧
      (¬(g = some gen ∧ i = index ∧ c = current) →
        t.unit p = { s.unit p with line := (t.unit p).line } ∧ KeepsOthers s t p ∧ KeepsPower s t) ∧
      (g = some gen → i = index → c = current →
        (purpose = .new → (t.unit p).restarts = 0 ∧ (t.unit p).state = .switching ∧
          (t.unit p).exchange = some (.ready (some gen) t.clock.base) ∧ (t.unit p).line.held = none ∧
          (t.unit p).contract = some ⟨index, (s.unit p).table.kindAt index, some gen, vop, current,
            vop * current / 1000, t.clock.base, none, none⟩ ∧
          (t.unit p).table = (s.unit p).table ∧ (t.portPath p).state = (s.portPath p).state ∧
          KeepsOthers s t p ∧ KeepsMode s t ∧ KeepsLink s t ∧ t.arb = s.arb ∧ t.path.a = s.path.a ∧
          t.path.b = s.path.b ∧ t.host.flags = s.host.flags) ∧
        (∀ k, (s.unit p).contract = some k → ∀ d, k.change = some d → purpose ≠ .new → purpose ≠ .ret →
          let k' : Contract := ⟨d.index, (s.unit p).table.kindAt d.index, d.gen, d.vop, d.current,
            d.vop * d.current / 1000, t.clock.base, none,
            if d.gen = (s.unit p).table.gen then none else k.window⟩
          (k.vop < d.vop ∨ k.current < d.current ∨ d.vop < k.vop →
            (t.unit p).restarts = 0 ∧ (t.unit p).contract = some k' ∧ (t.unit p).state = .switching ∧
            (t.unit p).exchange = some (if k.vop < d.vop ∨ k.current < d.current then
              .ready d.gen t.clock.base else .settle d.vop t.clock.base) ∧
            KeepsOthers s t p ∧ KeepsMode s t ∧ KeepsLink s t ∧ t.arb = s.arb ∧
            t.host.flags = s.host.flags ∧ (t.portPath p).ceiling = none ∧
            (k.vop = d.vop → t.meter p = s.meter p) ∧
            (k.vop ≠ d.vop → t.meter p = { s.meter p with droopRun := 0 }) ∧
            ∀ ch, s.channelOf p = some ch → (t.chan ch).draw ≤ (s.chan ch).draw ∧
              (t.chan ch).draw ≤ d.current) ∧
          (k.vop = d.vop → d.current ≤ k.current → s.stepOn p = false →
            (t.unit p).restarts = 0 ∧ (t.unit p).contract = some k' ∧ (t.unit p).state = .feeding ∧
            (t.unit p).exchange = none ∧ t.arb = s.arb ∧ KeepsOthers s t p ∧ t.meter p = s.meter p) ∧
          (k.vop = d.vop → d.current ≤ k.current → ∀ r, s.LastStepOn p r →
            (t.unit p).contract = some k' ∧ (t.unit p).state = .feeding ∧ (t.unit p).exchange = none ∧
            t.Completed r .done) ∧
          (k.vop = d.vop → d.current ≤ k.current → ∃ u, EndsStep s u t p .done ∧
            (u.unit p).restarts = 0 ∧ (u.unit p).contract = some k' ∧ (u.unit p).state = .feeding ∧
            (u.unit p).exchange = none ∧ (u.portPath p).ceiling = none ∧
            u.arb.pending = s.arb.pending ∧ u.meter p = s.meter p ∧ KeepsOthers s u p ∧ KeepsMode s u ∧
            KeepsLink s u)) ∧
        (∀ k, (s.unit p).contract = some k → purpose = .ret → ∃ u, EndsStep s u t p .failed ∧
          CapWritten s u p ∧ (u.unit p).restarts = 0 ∧ (u.unit p).state = .feeding ∧
          (u.unit p).exchange = none ∧ (u.unit p).contract = some { k with
            since := t.clock.base
            window := if k.gen = (s.unit p).table.gen then none else k.window } ∧
          (u.portPath p).ceiling = none ∧ u.arb.pending = s.arb.pending ∧ KeepsOthers s u p ∧
          KeepsMode s u ∧ KeepsLink s u) ∧
        (∀ k, (s.unit p).contract = some k → purpose = .ret → s.stepOn p = false →
          (t.unit p).restarts = 0 ∧ (t.unit p).state = .feeding ∧ (t.unit p).exchange = none ∧
          (t.unit p).contract = some { k with
            since := t.clock.base
            window := if k.gen = (s.unit p).table.gen then none else k.window } ∧
          t.arb = s.arb ∧ KeepsOthers s t p ∧ (t.portPath p).ceiling = none ∧ t.path.a = s.path.a ∧
          t.path.b = s.path.b))

/-- A DENY of the outstanding claim's generation ends it.  A NEW goes back to STANDBY and a RAISE to FEEDING with its old terms; a
LOWER or RESTATE loses its contract, goes to STANDBY and posts LOSS, or, on the sole feed, is demoted to Basic, its draw limit
min(900, Ider), and claims it; reason STALE begins a resync.  A step in flight has FAILED, with its denial cap, and the Arbiter
goes on; that of a sole feed stays in flight until Basic has been claimed.  A DENY of a return to Basic is a line fault (R12 to
R14, R21, R54, R56, R83, R102, R103, R144).
The model's own part: assumption logs 2, 8 and 12. -/
def Obligations.DenialsEndTheClaim : Prop :=
  (∀ (s : State) (p : PortId) (frame : List Byte) (gen : Gen) (reason : DenyReason) (purpose : Purpose)
    (i c vop attempt : Nat) (start : Time), s.delivers p frame (.deny gen reason) →
    (s.unit p).exchange = some (.claim purpose i c vop (some gen) attempt start) → purpose ≠ .ret →
    ∃ t, exec (.deny p frame) s = .next t ∧
      ((s.stepOn p = false ∨ ∃ r, s.LastStepOn p r) →
        KeepsMode s t ∧ KeepsLink s t ∧
        (purpose = .new ∨ purpose = .raise ∨ s.soleFeed p = false →
          (t.unit p).exchange = none ∧ (t.unit p).line.held = none) ∧
        (t.unit p).table = (s.unit p).table ∧ (t.unit p).restarts = (s.unit p).restarts ∧
        KeepsOthers s t p ∧
        (reason = .stale → (t.unit p).resyncStart = some ((s.unit p).resyncStart.getD t.clock.base)) ∧
        (reason ≠ .stale → (t.unit p).resyncStart = (s.unit p).resyncStart) ∧
        (purpose = .new → (t.unit p).state = .standby ∧ (t.unit p).contract = (s.unit p).contract) ∧
        (purpose = .raise → (t.unit p).state = .feeding ∧
          (t.unit p).contract = (s.unit p).contract.map fun k => { k with change := none }) ∧
        (purpose = .lower ∨ purpose = .restate → s.soleFeed p = false → (t.unit p).state = .standby ∧
          (t.unit p).contract = none ∧ (t.portPath p).state = .openPath ∧
          t.arb.pending.has ⟨.loss, .port p⟩ = true ∧ t.host.flags.get (.port p .contract) = true)) ∧
      (s.stepOn p = false → purpose = .new ∨ purpose = .raise → t.arb = s.arb ∧ t.path.port = s.path.port ∧
        t.path.a = s.path.a ∧ t.path.b = s.path.b ∧ t.host.flags = s.host.flags) ∧
      (∀ r, s.LastStepOn p r → (purpose = .new ∨ purpose = .raise ∨ s.soleFeed p = false) →
        t.Completed r .failed ∧ (t.unit p).denialCap = some ⟨if purpose = .raise then
          ((s.unit p).contract.map Contract.power).getD 0
          else if purpose = .new then ((s.unit p).contract.map Contract.power).getD 0 else 0,
          (s.unit p).table.gen⟩) ∧
      (purpose = .new ∨ purpose = .raise → ∃ u, EndsStep s u t p .failed ∧ CapWritten s u p ∧
        (u.unit p).exchange = none ∧ (u.unit p).line.held = none ∧ (u.unit p).table = (s.unit p).table ∧
        (purpose = .new → (u.unit p).state = .standby ∧ (u.unit p).contract = (s.unit p).contract) ∧
        (purpose = .raise → (u.unit p).state = .feeding ∧
          (u.unit p).contract = (s.unit p).contract.map fun k => { k with change := none }) ∧
        u.arb.pending = s.arb.pending ∧ u.path.port = s.path.port ∧ u.path.a = s.path.a ∧
        u.path.b = s.path.b ∧ u.host.flags = s.host.flags ∧ KeepsOthers s u p) ∧
      (purpose = .lower ∨ purpose = .restate → ∃ u, ChangeFailed s u t p ∧ (u.unit p).resyncStart =
        (if reason = .stale then some ((s.unit p).resyncStart.getD u.clock.base) else (s.unit p).resyncStart))) ∧
  (∀ (s : State) (p : PortId) (frame : List Byte) (gen : Gen) (reason : DenyReason) (i c vop attempt : Nat)
    (start : Time), s.delivers p frame (.deny gen reason) →
    (s.unit p).exchange = some (.claim .ret i c vop (some gen) attempt start) →
    ∃ u t, exec (.deny p frame) s = .next t ∧ LineFaultTaken s u t p ∧ (u.unit p).line.isBreaking = true)

/-- READY in the generation waited for tests the measured voltage against Vop ± floor(Vop / 20).  A NEW that is accepted is bound
to the lowest unbound channel and begins its precharge, its step still in flight; PRECHARGE_END, 20 ms later, tests again and
closes the path, the draw limit under claimed current, Ider and headroom.  A change that is accepted is in FEEDING.  Either is a
step DONE, and the raise follows.  A failed test ends the contract, or, for a sole feed, demotes it with a draw limit of min(900,
Ider), and posts LOSS; its step has FAILED, with its denial cap.  The Arbiter goes on, and a last step completes its rebalance
(R12 to R15, R21, R52, R54, R56, R106, R130, R131, R133, R136, R137, R144).
The model's own part: assumption logs 1, 2 and 8. -/
def Obligations.VoltageIsAccepted : Prop :=
  (∀ (s : State) (p : PortId) (frame : List Byte) (gen : Gen) (start : Time) (k : Contract),
    s.delivers p frame (.ready gen) → (s.unit p).exchange = some (.ready (some gen) start) →
    (s.unit p).contract = some k →
    let good := k.vop - k.vop / 20 ≤ s.voltage p ∧ s.voltage p ≤ k.vop + k.vop / 20
    ∃ t, exec (.ready p frame) s = .next t ∧ ((s.unit p).line.isBreaking = false → t.clock = s.clock) ∧
      KeepsMode s t ∧ KeepsLink s t ∧
      (∀ c, s.freeChannel = some c → (s.portPath p).state ≠ .closed → good →
        (t.portPath p).state = .precharge ∧ (t.portPath p).prechargeStart = some t.clock.base ∧
        t.chan c = ⟨some p, 0⟩ ∧ t.chan c.other = s.chan c.other ∧ (t.unit p).contract = some k ∧
        (t.unit p).exchange = none ∧ (t.unit p).state = (s.unit p).state ∧
        (t.unit p).restarts = (s.unit p).restarts ∧ t.arb = s.arb ∧ t.host.flags = s.host.flags ∧
        KeepsOthers s t p) ∧
      ((s.portPath p).state ≠ .closed → (¬good ∨ s.freeChannel = none) →
        (∃ u, EndsStep s u t p .failed ∧ CapWritten s u p ∧ (u.portPath p).state = .openPath ∧
          (u.unit p).contract = none ∧ (u.unit p).state = .standby ∧ (u.unit p).exchange = none ∧
          u.arb.pending = s.arb.pending.put ⟨.loss, .port p⟩ true ∧
          u.host.flags = s.host.flags.put (.port p .contract) true ∧
          (u.unit p).restarts = (s.unit p).restarts ∧ KeepsOthers s u p) ∧
        ∀ r, s.LastStepOn p r → t.Completed r .failed) ∧
      ((s.portPath p).state = .closed → good →
        (∃ u, EndsStep s u t p .done ∧ (u.unit p).contract = some k ∧ (u.unit p).state = .feeding ∧
          (u.unit p).exchange = none ∧ u.path.port = s.path.port ∧ u.arb.pending = s.arb.pending ∧
          u.host.flags = s.host.flags ∧ (u.unit p).restarts = (s.unit p).restarts ∧
          (s.stepOn p = false → u.path.a = s.path.a ∧ u.path.b = s.path.b) ∧
          (s.stepOn p = true → let fed := (s.modUnit p fun v => { v with state := .feeding }).raise
            u.path.a = fed.path.a ∧ u.path.b = fed.path.b) ∧ KeepsOthers s u p) ∧
        ∀ r, s.LastStepOn p r → t.Completed r .done) ∧
      ((s.portPath p).state = .closed → ¬good →
        (∃ u, ChangeFailed s u t p ∧ (u.unit p).restarts = (s.unit p).restarts) ∧
        ∀ r, s.LastStepOn p r → s.soleFeed p = false → t.Completed r .failed)) ∧
  (∀ (s : State) (p : PortId) (start : Time) (k : Contract), (s.portPath p).state = .precharge →
    (s.portPath p).prechargeStart = some start → (s.unit p).contract = some k →
    let good := k.vop - k.vop / 20 ≤ s.voltage p ∧ s.voltage p ≤ k.vop + k.vop / 20
    ∃ t, exec (.prechargeEnd p) s = .next t ∧ 20 ≤ (t.clock.base - start).toNat ∧
      (20 ≤ (s.clock.base - start).toNat → t.clock = s.clock) ∧ KeepsMode s t ∧ KeepsLink s t ∧
      (good →
        (∃ u, EndsStep s u t p .done ∧ (u.portPath p).state = .closed ∧ (u.portPath p).prechargeStart = none ∧
          (u.unit p).state = .feeding ∧ (u.unit p).cleanRunStart = some u.clock.base ∧
          (u.unit p).contract = some k ∧ u.arb.pending = s.arb.pending ∧ u.host.flags = s.host.flags ∧
          KeepsOthers s u p ∧
          ∀ c, s.channelOf p = some c → (u.chan c).bound = (s.chan c).bound ∧
            (u.chan c.other).bound = (s.chan c.other).bound ∧
            (s.stepOn p = false → u.chan c.other = s.chan c.other) ∧
            (s.path.a.bound ≠ s.path.b.bound →
              (u.chan c).draw = underCeiling (min (min k.current (s.contractIder p)) (s.headroom c k.vop))
                (s.portPath p).ceiling ∧
              ((s.chan c.other).bound = none → (u.chan c).draw ≤ s.mode.limit * 1000 / k.vop / 10 * 10) ∧
              ∀ q k', (s.chan c.other).bound = some q → (s.unit q).contract = some k' → (u.chan c).draw ≤
                (s.mode.limit - k'.vop * (s.chan c.other).draw / 1000) * 1000 / k.vop / 10 * 10)) ∧
        ∀ r, s.LastStepOn p r → t.Completed r .done ∧ t.path.statusOutput = true) ∧
      (¬good →
        (∃ u, EndsStep s u t p .failed ∧ CapWritten s u p ∧ (u.portPath p).state = .openPath ∧
          (u.unit p).state = .standby ∧ (u.unit p).contract = none ∧
          u.arb.pending = s.arb.pending.put ⟨.loss, .port p⟩ true ∧
          u.host.flags = s.host.flags.put (.port p .contract) true ∧ KeepsOthers s u p) ∧
        ∀ r, s.LastStepOn p r → t.Completed r .failed))

/-- A RATING that answers the QUERY writes the cable record, at most 5000 mA, computes the table again, each entry by the tests of
R4 and R5 against the new max voltage, and ends the query, and discovery with it where an OFFERS has been stored.  A kept Basic
contract of more than the new max current is lowered to that, rounded down to 10 mA, its committed power with it and its since as
it was; its channel's draw limit is cut to no more than that, the new Ider and the headroom, and SHED GLOBAL is posted where the
contracts add up to more than L, and CHANGE for the port otherwise; the end of discovery takes its port to FEEDING.
QUERY_WAIT_EXPIRY, 30 ms into an attempt, hands over attempt 2 after the first, and ends the query after the second (R4 to R8, R75,
R77, R95, R96, R136, R139).
The model's own part: assumption log 1, 2, 12. -/
def Obligations.QueriesEnd : Prop :=
  (∀ (s : State) (p : PortId) (frame : List Byte) (current voltage attempt : Nat) (start : Option Time),
    s.delivers p frame (.rating current voltage) → (s.unit p).exchange = some (.query attempt start) →
    (s.unit p).state = .discover → (s.unit p).contract = none →
    ∃ t, exec (.rating p frame) s = .next t ∧ (t.unit p).cable = some ⟨min 5000 current, voltage⟩ ∧
      (t.unit p).table = { (s.unit p).table with entries := (s.unit p).table.entries.map (rejudge voltage) } ∧
      (∀ (n : Nat) (old : Entry), (s.unit p).table.entries[n]? = some old →
        ∃ e, (t.unit p).table.entries[n]? = some e ∧ Rejudged voltage old e) ∧
      (t.unit p).exchange = none ∧ (t.unit p).queryEnded = true ∧ (t.unit p).line.held = none ∧
      KeepsOthers s t p ∧ KeepsMode s t ∧ KeepsLink s t ∧ t.prot = s.prot ∧ t.path.port = s.path.port ∧
      t.host.flags = s.host.flags ∧
      ((s.unit p).table.gen = none → (t.unit p).state = .discover ∧ t.arb = s.arb) ∧
      ((s.unit p).table.gen.isSome = true → (t.unit p).state = .standby ∧
        t.arb.pending = s.arb.pending.put ⟨.gain, .port p⟩ true)) ∧
  (∀ (s : State) (p : PortId) (frame : List Byte) (current voltage attempt : Nat) (start : Option Time) (k : Contract),
    s.delivers p frame (.rating current voltage) → (s.unit p).exchange = some (.query attempt start) →
    (s.unit p).state = .discover → (s.unit p).contract = some k → k.kind = .basic →
    let cable := min 5000 current
    let lowered := cable / 10 * 10
    ∃ t, exec (.rating p frame) s = .next t ∧ (t.unit p).cable = some ⟨cable, voltage⟩ ∧
      (∀ (n : Nat) (old : Entry), (s.unit p).table.entries[n]? = some old →
        ∃ e, (t.unit p).table.entries[n]? = some e ∧ Rejudged voltage old e) ∧
      (t.unit p).exchange = none ∧ (t.unit p).queryEnded = true ∧ (t.unit p).line.held = none ∧
      KeepsOthers s t p ∧ KeepsMode s t ∧ KeepsLink s t ∧ t.prot = s.prot ∧ t.host.flags = s.host.flags ∧
      (t.portPath p).state = (s.portPath p).state ∧ (t.portPath p).ceiling = (s.portPath p).ceiling ∧
      (t.unit p).state = (if (s.unit p).table.gen.isSome then .feeding else .discover) ∧
      let gain := if (s.unit p).table.gen.isSome then [(⟨.gain, .port p⟩ : PendingEntry)] else []
      (k.current ≤ cable → (t.unit p).contract = some k ∧ t.path.port = s.path.port ∧ t.path.a = s.path.a ∧
        t.path.b = s.path.b ∧ Posted s t gain) ∧
      (cable < k.current → let power := k.vop * lowered / 1000
        let sum := (PortId.all.map fun q => if q = p then power
          else ((s.unit q).contract.map Contract.power).getD 0).sum
        let offer := min 900 (min cable 5000)
        (t.unit p).contract = some { k with current := lowered, power := power } ∧
        (t.portPath p).offerCurrent = some offer ∧
        Posted s t ((if s.mode.limit < sum then ⟨.shed, .whole⟩ else ⟨.change, .port p⟩) :: gain) ∧
        ∀ c, s.channelOf p = some c → t.chan c.other = s.chan c.other ∧
          (t.chan c).bound = (s.chan c).bound ∧
          (t.chan c).draw = min (min (s.chan c).draw lowered)
            (min (offer * (s.unit p).derate / 1000 * 10) (s.headroom c k.vop)))) ∧
  (∀ (s : State) (p : PortId) (attempt : Nat) (start : Time),
    (s.unit p).exchange = some (.query attempt (some start)) → (s.unit p).line.isBreaking = false →
    (s.unit p).state = .discover → (s.unit p).contract = none →
    ∃ t, exec (.queryWaitExpiry p) s = .next t ∧ 30 ≤ (t.clock.base - start).toNat ∧
      (30 ≤ (s.clock.base - start).toNat → t.clock = s.clock) ∧
      KeepsOthers s t p ∧ KeepsMode s t ∧ KeepsLink s t ∧ t.prot = s.prot ∧ t.path.port = s.path.port ∧
      t.host.flags = s.host.flags ∧ (t.unit p).cable = (s.unit p).cable ∧ (t.unit p).table = (s.unit p).table ∧
      (attempt = 1 → (t.unit p).exchange = some (.query 2 (some t.clock.base)) ∧
        (t.unit p).line.held = some queryFrame ∧ (t.unit p).line.transmitter = .waiting ∧
        (t.unit p).state = .discover ∧ t.arb = s.arb) ∧
      (attempt ≠ 1 → (t.unit p).exchange = none ∧ (t.unit p).queryEnded = true ∧
        (t.unit p).line.held = none ∧
        ((s.unit p).table.gen = none → (t.unit p).state = .discover ∧ t.arb = s.arb) ∧
        ((s.unit p).table.gen.isSome = true → (t.unit p).state = .standby ∧
          t.arb.pending = s.arb.pending.put ⟨.gain, .port p⟩ true)))

/-- A CLAIM attempt of 30 ms is followed by the next, with the same terms, up to the third; a SETTLE wait of 500 ms loses the
terms; a window of 200 ms carries a VALID contract into the table's generation, and an INVALID one lapses.  A contract that ends
so leaves its port in STANDBY and posts LOSS; that of a sole feed is demoted to Basic, its draw limit min(900, Ider), and Basic is
claimed.  A step in flight has FAILED, with its denial cap, and the Arbiter goes on.  A frame being sent when its attempt ends is
stopped, and the line rises.  A VALID window that runs out under an outstanding claim gives the claim up, its step FAILED, the
model's reading of R19 (assumption log 17) (R12 to R15, R19, R54, R56, R100, R107, R124, R144).
The model's own part: assumption logs 1, 13 and 17. -/
def Obligations.WaitsRunOut : Prop :=
  (∀ (s : State) (p : PortId) (purpose : Purpose) (i c vop : Nat) (g : Option Gen) (n : Nat) (start : Time),
    (s.unit p).exchange = some (.claim purpose i c vop g n start) → n < 3 →
    ∃ t, exec (.claimWaitExpiry p) s = .next t ∧ 30 ≤ (t.clock.base - start).toNat ∧
      (30 ≤ (s.clock.base - start).toNat → t.clock = s.clock) ∧
      t.unit p = { s.unit p with
        state := .claiming, exchange := some (.claim purpose i c vop g (n + 1) t.clock.base)
        line := (t.unit p).line } ∧ (t.unit p).line.held = some (claimFrame i c vop g) ∧
      (t.unit p).line.collisions = 0 ∧ (t.unit p).line.reception = (s.unit p).line.reception ∧
      (t.unit p).line.transmitter =
        (if (s.unit p).line.isBreaking then (s.unit p).line.transmitter else .waiting) ∧
      ((s.unit p).line.isSending = false → (t.unit p).line.quietStart = (s.unit p).line.quietStart ∧
        (t.unit p).line.lowStart = (s.unit p).line.lowStart) ∧
      (∀ began frame, (s.unit p).line.transmitter = .sending began → (s.unit p).line.held = some frame →
        s.pins.lineLow.get p = false → frame ≠ [] → began ≤ s.clock.bit → (t.unit p).line.lowStart = none ∧
          ∃ q, (t.unit p).line.quietStart = some q ∧ began ≤ q) ∧ KeepsOthers s t p ∧
        KeepsMode s t ∧ KeepsLink s t ∧ KeepsPower s t ∧ t.host.flags = s.host.flags) ∧
  (∀ (s : State) (p : PortId) (start : Time) (ms : Nat) (i : Instr),
    (i = .settleTimeout p ∧ (s.unit p).settleStart = some start ∧ ms = 500 ∨
      i = .windowExpiry p ∧ ms = 200 ∧
        ((s.unit p).contract.bind Contract.window) = some ⟨start, .invalid⟩) →
    ∃ u t, exec i s = .next t ∧ ms ≤ (t.clock.base - start).toNat ∧
      (ms ≤ (s.clock.base - start).toNat → t.clock = s.clock) ∧ ChangeFailed s u t p ∧ u.clock = t.clock ∧
      KeepsMode s t ∧ KeepsLink s t ∧ (u.unit p).resyncStart = (s.unit p).resyncStart ∧
      (u.unit p).restarts = (s.unit p).restarts ∧
      ∀ r, s.LastStepOn p r → s.soleFeed p = false → t.Completed r .failed) ∧
  (∀ (s : State) (p : PortId) (start : Time) (k : Contract), (s.unit p).contract = some k →
    k.window = some ⟨start, .valid⟩ →
    (s.unit p).claims = false →
    ∃ t, exec (.windowExpiry p) s = .next t ∧ 200 ≤ (t.clock.base - start).toNat ∧
      (200 ≤ (s.clock.base - start).toNat → t.clock = s.clock) ∧
      t.unit p = { s.unit p with contract := some { k with gen := (s.unit p).table.gen, window := none } } ∧
      (t.portPath p).ceiling = none ∧ KeepsOthers s t p ∧ KeepsMode s t ∧ KeepsLink s t ∧ t.arb = s.arb ∧
      s.path.a.draw ≤ t.path.a.draw ∧ s.path.b.draw ≤ t.path.b.draw ∧
      ((s.portPath p).ceiling = none → t.path.a = s.path.a ∧ t.path.b = s.path.b)) ∧
  (∀ (s : State) (p : PortId) (start : Time) (k : Contract), (s.unit p).contract = some k →
    k.window = some ⟨start, .valid⟩ → (s.unit p).claims = true →
    ∃ u t, exec (.windowExpiry p) s = .next t ∧ EndsStep s u t p .failed ∧ CapWritten s u p ∧
      (u.unit p).exchange = none ∧ (u.unit p).line.held = none ∧ (u.unit p).state = .feeding ∧
      (u.unit p).contract = some { k with gen := (s.unit p).table.gen, window := none, change := none } ∧
      (u.portPath p).ceiling = none ∧ KeepsOthers s u p ∧ KeepsMode s u ∧ KeepsLink s u ∧
      u.arb.pending = s.arb.pending ∧ u.host.flags = s.host.flags)

/-- A line fault meets a port that spoke at the third unanswered CLAIM attempt, at a READY wait of 500 ms, at a resync of 300 ms
outside STANDBY, and at a break received in CLAIMING, SWITCHING or FEEDING; the part sends its own break but after a received one.
The contract of a sole feed is demoted, its draw limit min(900, Ider), any other ends; a step in flight has FAILED, and the
Arbiter goes on.  In DISCOVER and STANDBY a received break begins discovery afresh, as a resync that runs out in STANDBY does, and
no restart is counted (R13, R54, R56, R82, R83, R84, R100, R103, R106, R109, R126, R144).
The model's own part: assumption logs 1, 2, 5, 8 and 13. -/
def Obligations.LineFaultsRestartThePort : Prop :=
  (∀ (s : State) (p : PortId) (start : Time) (ms : Nat) (i : Instr),
    (i = .readyTimeout p ∧ ms = 500 ∧ (s.unit p).readyStart = some start ∨
      i = .claimWaitExpiry p ∧ ms = 30 ∧
        (∃ x, (s.unit p).claimAttempt = some x ∧ 3 ≤ x.1 ∧ x.2 = start) ∨
      i = .resyncExpiry p ∧ ms = 300 ∧ (s.unit p).resyncStart = some start ∧
        ((s.unit p).state = .claiming ∨ (s.unit p).state = .switching ∨ (s.unit p).state = .feeding)) →
    (s.unit p).speaks = true →
    ∃ u t, exec i s = .next t ∧ ms ≤ (t.clock.base - start).toNat ∧
      (ms ≤ (s.clock.base - start).toNat → t.clock = s.clock) ∧ LineFaultTaken s u t p ∧
      (u.unit p).line.isBreaking = true ∧ u.clock = t.clock ∧ KeepsMode s t ∧ KeepsLink s t ∧
      ∀ r, s.LastStepOn p r → t.Completed r .failed) ∧
  (∀ (s : State) (p : PortId), (s.unit p).listens = true → (s.unit p).line.isSending = false →
    (s.unit p).line.isBreaking = false →
    ((s.unit p).line.lowStart = none ∨ (s.unit p).line.breakReported = false) →
    ∃ t, exec (.breakReceived p) s = .next t ∧ t.pins.lineLow.get p = true ∧
      (t.unit p).line.reception = .hunting ∧ (t.unit p).line.breakReported = true ∧
      (∃ low, (t.unit p).line.lowStart = some low ∧ low + 2000 ≤ t.clock.bit) ∧ KeepsMode s t ∧
      KeepsLink s t ∧
      ((s.unit p).state = .claiming ∨ (s.unit p).state = .switching ∨ (s.unit p).state = .feeding →
        (∃ u, LineFaultTaken s u t p ∧ (u.unit p).line.isBreaking = false) ∧
          ∀ r, s.LastStepOn p r → t.Completed r .failed) ∧
      ((s.unit p).state = .discover ∨ (s.unit p).state = .standby → KeepsOthers s t p ∧ KeepsPower s t ∧
        t.host.flags = s.host.flags ∧ (t.unit p).state = .discover ∧
        (t.unit p).exchange = some (.query 1 (some t.clock.base)) ∧ (t.unit p).table = discoverTable ∧
        (t.unit p).cable = none ∧ (t.unit p).denialCap = none ∧ (t.unit p).droopCap = none ∧
        (t.unit p).discoveryStart = some t.clock.base ∧ (t.unit p).restarts = (s.unit p).restarts ∧
        (t.unit p).contract = (s.unit p).contract) ∧
      ((s.unit p).state = .faulted → KeepsOthers s t p ∧ KeepsPower s t ∧
        t.unit p = { s.unit p with line := (t.unit p).line })) ∧
  (∀ (s : State) (p : PortId) (start : Time), (s.unit p).state = .standby → (s.unit p).speaks = true →
    (s.unit p).resyncStart = some start →
    ∃ t, exec (.resyncExpiry p) s = .next t ∧ 300 ≤ (t.clock.base - start).toNat ∧
      (300 ≤ (s.clock.base - start).toNat → t.clock = s.clock) ∧ (t.unit p).state = .discover ∧
      (t.unit p).line.isBreaking = true ∧ (t.unit p).exchange = some (.query 1 none) ∧
      (t.unit p).table = discoverTable ∧ (t.unit p).resyncStart = none ∧
      (t.unit p).restarts = (s.unit p).restarts ∧ (t.unit p).contract = (s.unit p).contract ∧
      t.host.flags = s.host.flags ∧ KeepsOthers s t p ∧ KeepsMode s t ∧ KeepsPower s t ∧ KeepsLink s t)

/-! ### Line signalling -/

/-- What a port's line receives, out of OFF: a sync byte while HUNTING begins a frame, and inside a frame it is data; a complete frame
that fails a test goes unheard; a gap of 1 ms or a framing error discards the partial frame.  The low run of a framing error
counts from the fall that began its byte, 100 µs before the byte's end and no earlier than the line last rose or last byte end; a
run already counted goes on as one low where its start, or its break's detection, is no earlier than that fall, and has ended
before it otherwise; none is counted while the part breaks.  Nothing but the line is moved.  In a frame that the part sends, a
framing error is the collision and then the byte's end: at the first two the frame is in BACKOFF, and the third fails it, which
ends a QUERY attempt and is a line fault for a CLAIM, with or without a step in flight.  A START_OF_FRAME_REPORT on a SMART port
in STANDBY or FEEDING, while HUNTING, is a fall, and wakes a DORMANT part that selects LINE_ANY (R83, R95, R100, R117 to R121,
R123, R126, R177).
The model's own part: assumption logs 1, 5, 8 and 13; and log 2 (DESIGN CHOICE), by which SYNC_BYTE_TAKEN,
DIALOGUE_FRAME_REJECT and LINE_FRAMING_ERROR bring no start-of-frame report of their own.  Their `t.mode = s.mode` so holds also of
a DORMANT part that selects LINE_ANY, on a SMART port in STANDBY or FEEDING while HUNTING, where by R121 and R177 the byte's start
bit is reported and wakes the part: here that report, and so the wake, is START_OF_FRAME_REPORT's alone. -/
def Obligations.LinesReceive : Prop :=
  (∀ (s : State) (p : PortId) (frame : List Byte),
    ((s.unit p).state ≠ .off → (s.unit p).line.isBreaking = false →
      ((∀ taken, (s.unit p).line.reception = .inFrame taken → frameComplete (taken ++ [0xC3#8]) = false) →
        ∃ t, exec (.syncByteTaken p) s = .next t ∧ t.clock = s.clock ∧ t.mode = s.mode ∧
        t.host.flags = s.host.flags ∧ KeepsOthers s t p ∧ KeepsPower s t ∧ KeepsLink s t ∧
        t.unit p = { s.unit p with line := (t.unit p).line } ∧ t.pins.lineLow.get p = false ∧
        (t.unit p).line.lastByteEnd = some s.clock.bit ∧
        ((s.unit p).line.reception = .hunting → (t.unit p).line.reception = .inFrame []) ∧
        (∀ taken, (s.unit p).line.reception = .inFrame taken →
          (t.unit p).line.reception = .inFrame (taken ++ [0xC3#8]))) ∧
      (frameComplete frame = true → readFrame frame = none →
        ∃ t, exec (.dialogueFrameReject p frame) s = .next t ∧ t.clock = s.clock ∧ t.mode = s.mode ∧
          t.host.flags = s.host.flags ∧ KeepsOthers s t p ∧ KeepsPower s t ∧ KeepsLink s t ∧
          t.unit p = { s.unit p with line := (t.unit p).line } ∧ t.pins.lineLow.get p = false ∧
          (t.unit p).line.reception = .hunting ∧ (t.unit p).line.lastByteEnd = some s.clock.bit ∧
          (t.unit p).line.held = (s.unit p).line.held ∧
          (t.unit p).line.transmitter = (s.unit p).line.transmitter)) ∧
    (∀ e, (s.unit p).line.lastByteEnd = some e → (s.unit p).line.reception ≠ .hunting →
      ∃ t, exec (.lineGapTimeout p) s = .next t ∧ t.clock.bit = max s.clock.bit (e + 1000) ∧
        t.unit p = { s.unit p with line := { (s.unit p).line with reception := .hunting } } ∧
        t.host.flags = s.host.flags ∧ KeepsOthers s t p ∧ KeepsMode s t ∧ KeepsPower s t ∧ KeepsLink s t)) ∧
  (∀ (s : State) (p : PortId) (taken : List Byte), (s.unit p).state ≠ .off →
    (s.unit p).line.reception = .inFrame taken → frameComplete (taken ++ [0xC3#8]) = true →
    exec (.syncByteTaken p) s = exec (receptionOf p (taken ++ [0xC3#8])) s) ∧
  (∀ (s : State) (p : PortId), (s.unit p).state ≠ .off →
    ((s.unit p).line.isSending = false →
      ∃ t, exec (.lineFramingError p) s = .next t ∧ t.clock = s.clock ∧ t.mode = s.mode ∧
        t.host.flags = s.host.flags ∧ KeepsOthers s t p ∧ KeepsPower s t ∧ KeepsLink s t ∧
        t.unit p = { s.unit p with line := (t.unit p).line } ∧
        (t.unit p).line.reception = .hunting ∧ (t.unit p).line.lastByteEnd = some s.clock.bit ∧
        (t.unit p).line.held = (s.unit p).line.held ∧
        (t.unit p).line.transmitter = (s.unit p).line.transmitter ∧
        ((s.unit p).line.isBreaking = true → t.pins = s.pins ∧
          (t.unit p).line.lowStart = (s.unit p).line.lowStart ∧
          (t.unit p).line.quietStart = (s.unit p).line.quietStart) ∧
        ((s.unit p).line.isBreaking = false → t.pins.lineLow.get p = true ∧
          ((s.unit p).line.lowStart = none → (t.unit p).line.breakReported = false ∧
            (t.unit p).line.lowStart = some (max (s.clock.bit - 100)
              (max ((s.unit p).line.quietStart.getD 0) ((s.unit p).line.lastByteEnd.getD 0)))) ∧
          (∀ low, (s.unit p).line.lowStart = some low →
            let shown := if (s.unit p).line.breakReported then low + 2000 else low
            let byte := max (s.clock.bit - 100) ((s.unit p).line.lastByteEnd.getD 0)
            (byte ≤ shown → (t.unit p).line.lowStart = some low ∧
              (t.unit p).line.breakReported = (s.unit p).line.breakReported) ∧
            (shown < byte → (t.unit p).line.lowStart = some byte ∧ (t.unit p).line.breakReported = false ∧
              (t.unit p).line.quietStart = some byte)))) ∧
    ((s.unit p).line.isSending = true → (s.unit p).line.collisions < 2 →
      ∃ t, exec (.lineFramingError p) s = .next t ∧ (t.unit p).line.transmitter = .backoff ∧
        (t.unit p).line.collisions = (s.unit p).line.collisions + 1 ∧
        (t.unit p).line.held = (s.unit p).line.held ∧ t.pins.lineLow.get p = true ∧
        (t.unit p).line.reception = .hunting ∧ (t.unit p).line.lastByteEnd = some s.clock.bit) ∧
    ((s.unit p).line.isSending = true →
      ∃ c t, exec (.collision p) s = .next c ∧ exec (.lineFramingError p) c = .next t ∧
        exec (.lineFramingError p) s = .next t ∧ (c.unit p).state ≠ .off ∧ (c.unit p).line.isSending = false ∧
        t.clock = s.clock ∧ (t.unit p).line.reception = .hunting ∧
        (t.unit p).line.lastByteEnd = some s.clock.bit ∧
        (2 ≤ (s.unit p).line.collisions → (t.unit p).line.collisions = 0 ∧
          (∀ n, (s.unit p).queryAttempt = some n →
            (n = 1 → t.unit p = { s.unit p with
                exchange := some (.query 2 (some s.clock.base)), line := (t.unit p).line } ∧
              (t.unit p).line.held = some queryFrame ∧ (t.unit p).line.transmitter = .waiting) ∧
            (n ≠ 1 → (t.unit p).queryEnded = true ∧ (t.unit p).exchange = none ∧
              (t.unit p).line.held = none ∧ (t.unit p).line.transmitter = .idle)) ∧
          ((s.unit p).claims = true → (s.unit p).speaks = true →
            ∃ u, LineFaultTaken s u c p ∧ (u.unit p).line.isBreaking = true)))) ∧
  (∀ (s : State) (p : PortId),
    ∃ t, exec (.startOfFrameReport p) s = .next t ∧ t.clock = s.clock ∧ KeepsOthers s t p ∧ KeepsPower s t ∧
      KeepsLink s t ∧
      let reports := (s.unit p).mode = .smart ∧ ((s.unit p).state = .standby ∨ (s.unit p).state = .feeding) ∧
        (s.unit p).line.reception = .hunting ∧ (s.unit p).line.isSending = false ∧
        (s.unit p).line.isBreaking = false
      let wakes := reports ∧ s.mode.power = .dormant ∧ s.mode.wakeSet.any (·.lineAny) = true
      (reports → t.pins.lineLow.get p = true ∧ t.unit p = { s.unit p with line := { (s.unit p).line with
          quietStart := (t.unit p).line.quietStart, lowStart := some s.clock.bit, breakReported := false } }) ∧
      (¬reports → t.units = s.units ∧ t.pins = s.pins) ∧
      (wakes → t.mode = { s.mode with power := .active, wakeSet := none } ∧
        t.host.flags = s.host.flags.put (.whole .wake) true) ∧
      (¬wakes → t.mode = s.mode ∧ t.host.flags = s.host.flags))

/-- What a port's line sends: a held frame after 1 ms of quiet while HUNTING, or after 3 ms as a retry, counted from the rise of a line
that was low; FRAME_SENT, at 100 µs a byte, removes it; a collision finds the line low and puts the frame into BACKOFF, and the third
fails it, which ends a QUERY attempt and is a line fault for a CLAIM, with or without a step in flight.  The part's own break ends at
3 ms, with quiet start where the line rises and a low run where another party pulls, and a QUERY that waited for that is handed over
(R83, R95, R100, R122, R123, R125, R126).
The model's own part: assumption logs 1, 5, 8, 13 and 20. -/
def Obligations.LinesSend : Prop :=
  (∀ (s : State) (p : PortId) (quiet : Nat) (i : Instr),
    (i = .transmitStart p ∧ quiet = 1000 ∧ (s.unit p).line.transmitter = .waiting ∧
        (s.unit p).line.reception = .hunting ∨
      i = .backoffRetry p ∧ quiet = 3000 ∧ (s.unit p).line.transmitter = .backoff) →
    let low := s.pins.lineLow.get p
    let rose := if low then s.clock.bit else (s.unit p).line.quietStart.getD s.clock.bit
    ∃ t, exec i s = .next t ∧ t.clock.bit = max s.clock.bit (rose + quiet) ∧ t.pins.lineLow.get p = false ∧
      t.unit p = { s.unit p with line := { (s.unit p).line with
        transmitter := .sending t.clock.bit
        quietStart := if low then some s.clock.bit else (s.unit p).line.quietStart
        lowStart := if low then none else (s.unit p).line.lowStart } } ∧
      (∀ x, x ≠ p → t.pins.lineLow.get x = s.pins.lineLow.get x) ∧ t.host.flags = s.host.flags ∧
      KeepsOthers s t p ∧ KeepsMode s t ∧ KeepsPower s t ∧ KeepsLink s t) ∧
  (∀ (s : State) (p : PortId) (start : Nat) (frame : List Byte), (s.unit p).line.transmitter = .sending start →
    (s.unit p).line.held = some frame →
    (∃ t, exec (.frameSent p) s = .next t ∧ t.clock.bit = max s.clock.bit (start + 100 * frame.length) ∧
      t.unit p = { s.unit p with line := (t.unit p).line } ∧ (t.unit p).line.held = none ∧
      (t.unit p).line.transmitter = .idle ∧ (t.unit p).line.collisions = 0 ∧
      (t.unit p).line.reception = .hunting ∧ (t.unit p).line.lastByteEnd = some t.clock.bit ∧
      (t.unit p).line.lowStart = none ∧ t.pins.lineLow.get p = false ∧
      t.host.flags = s.host.flags ∧ KeepsOthers s t p ∧ KeepsMode s t ∧ KeepsPower s t ∧ KeepsLink s t) ∧
    ∃ t, exec (.collision p) s = .next t ∧
      ((s.unit p).line.collisions < 2 → t.unit p = { s.unit p with line := (t.unit p).line } ∧
        (t.unit p).line.transmitter = .backoff ∧
        (t.unit p).line.collisions = (s.unit p).line.collisions + 1 ∧
        (t.unit p).line.held = some frame ∧ (t.unit p).line.reception = (s.unit p).line.reception ∧
        (t.unit p).line.lowStart.isSome = true ∧ t.pins.lineLow.get p = true ∧
        t.clock = s.clock ∧ t.mode = s.mode ∧ t.host.flags = s.host.flags ∧ KeepsOthers s t p ∧
        KeepsPower s t ∧ KeepsLink s t) ∧
      (2 ≤ (s.unit p).line.collisions → (s.unit p).queryAttempt = some 1 →
        t.unit p = { s.unit p with exchange := some (.query 2 (some s.clock.base)), line := (t.unit p).line } ∧
        (t.unit p).line.held = some queryFrame ∧ (t.unit p).line.collisions = 0 ∧
        (t.unit p).line.transmitter = .waiting ∧ t.pins.lineLow.get p = true ∧
        t.clock = s.clock ∧ t.mode = s.mode ∧ t.host.flags = s.host.flags ∧ KeepsOthers s t p ∧
        KeepsPower s t ∧ KeepsLink s t)) ∧
  (∀ (s : State) (p : PortId), (s.unit p).line.isSending = true → 2 ≤ (s.unit p).line.collisions →
    (s.unit p).claims = true → (s.unit p).speaks = true →
    ∃ u t, exec (.collision p) s = .next t ∧ LineFaultTaken s u t p ∧ (u.unit p).line.isBreaking = true ∧
      t.clock = s.clock) ∧
  (∀ (s : State) (p : PortId) (start : Nat), (s.unit p).line.transmitter = .breaking start →
    ∃ t, exec (.breakRelease p) s = .next t ∧ t.clock.bit = max s.clock.bit (start + 3000) ∧
      KeepsOthers s t p ∧ KeepsMode s t ∧ KeepsPower s t ∧ KeepsLink s t ∧ t.host.flags = s.host.flags ∧
      ((s.unit p).state = .off → (t.unit p).line.lowStart = none ∧
        (t.unit p).line.quietStart = (s.unit p).line.quietStart) ∧
      ((s.unit p).state ≠ .off → s.pins.lineLow.get p = false → (t.unit p).line.lowStart = none ∧
        (t.unit p).line.quietStart = some t.clock.bit) ∧
      ((s.unit p).state ≠ .off → s.pins.lineLow.get p = true → (t.unit p).line.breakReported = false ∧
        (t.unit p).line.lowStart = some t.clock.bit) ∧
      (∀ n, (s.unit p).queryBehindBreak = some n →
        t.unit p = { s.unit p with
          exchange := some (.query n (some t.clock.base)), line := (t.unit p).line } ∧
        (t.unit p).line.held = some queryFrame ∧ (t.unit p).line.transmitter = .waiting) ∧
      ((s.unit p).queryBehindBreak = none →
        t.unit p = { s.unit p with line := (t.unit p).line } ∧
        (t.unit p).line.held = (s.unit p).line.held ∧
        (t.unit p).line.transmitter = (if (s.unit p).line.held.isSome then .waiting else .idle)))

/-! ### Sensing -/

/-- At each sample of a port whose path is CLOSED, and that does not trip, floor(V × M / 1000) is added to the energy counters, one mWh
being carried at 3,600,000, W wrapping at 2^32; in PRECHARGE none is added, whatever the state of the port and the power mode.
V and M are the raw readings with the port's trim added or subtracted, a result below 0 read as 0, and held to 30000 mV and 8000 mA
(R158; R148 for the readings). -/
def Obligations.SamplesCountEnergy : Prop :=
  ∀ (s : State) (p : PortId) (v m V M : Nat), s.MetersLawful →
    V = corrected (s.mode.trim.get p).voltage v 30000 → M = corrected (s.mode.trim.get p).current m 8000 →
    (s.portPath p).state ≠ .openPath → M < 6000 →
    integrate (s.meter p).excess (allowance (s.reference p)) M < 4000 →
    ∃ t, exec (.sample p v m) s = .next t ∧ V ≤ 30000 ∧ M ≤ 8000 ∧ V * M / 1000 ≤ 240000 ∧
      (let volts := (s.mode.trim.get p).voltage
        let amps := (s.mode.trim.get p).current
        (volts.direction = .add → V = min 30000 (v + volts.amount)) ∧
        (volts.direction = .subtract → v ≤ volts.amount → V = 0) ∧
        (volts.direction = .subtract → volts.amount ≤ v → V = min 30000 (v - volts.amount)) ∧
        (amps.direction = .add → M = min 8000 (m + amps.amount)) ∧
        (amps.direction = .subtract → m ≤ amps.amount → M = 0) ∧
        (amps.direction = .subtract → amps.amount ≤ m → M = min 8000 (m - amps.amount)) ∧
        s.voltage p = corrected volts (s.pins.sense.get p).voltage 30000 ∧
        s.current p = corrected amps (s.pins.sense.get p).current 8000) ∧
      t.pins.sense.get p = ⟨v, m⟩ ∧ t.clock = s.clock ∧
      ((s.portPath p).state = .precharge → t.unit p = s.unit p ∧ KeepsOthers s t p ∧ t.mode = s.mode ∧
        t.meter p = { s.meter p with
          excess := integrate (s.meter p).excess (allowance (s.reference p)) M } ∧ t.arb = s.arb) ∧
      ((s.portPath p).state = .closed →
        ((s.meter p).fine + V * M / 1000 < 3600000 →
          (t.meter p).fine = (s.meter p).fine + V * M / 1000 ∧ (t.meter p).whole = (s.meter p).whole) ∧
        (3600000 ≤ (s.meter p).fine + V * M / 1000 →
          (t.meter p).fine = (s.meter p).fine + V * M / 1000 - 3600000 ∧
          (t.meter p).whole = if (s.meter p).whole = 4294967295 then 0 else (s.meter p).whole + 1)) ∧
      (t.meter p).fine < 3600000 ∧ ∀ q, q ≠ p → (t.meter q).fine = (s.meter q).fine ∧
        (t.meter q).whole = (s.meter q).whole

/-- A sample trips the port at 6000 mA or more, or where the accumulator reaches 4000 mA·ms: the contract ends, the path opens, the
port is FAULTED with one more trip, with a cool-down below the third, TRIP is set and SHED is posted for it, and no energy is
counted.  A cap standing on the port stays, and none is written.  A step in flight on it is ABORTED, and the Arbiter goes on.  A
sample of an OPEN path only reads the sense input.  The reference current is the draw limit of a CLOSED path and the claimed current
of one in PRECHARGE, and the allowance A is that and its eighth; M above A adds the excess, up to 65535, and M at or below A takes
off a quarter of the shortfall, down to 0 (R56, R61, R85, R148, R150 to R152).
The model's own part: assumption log 4, 8, and 22 for the standing caps (DESIGN CHOICE). -/
def Obligations.SamplesTrip : Prop :=
  (∀ (s : State) (p : PortId) (v m M ref : Nat), M = corrected (s.mode.trim.get p).current m 8000 →
    ((s.portPath p).state = .closed ∧ (∃ c, s.channelOf p = some c ∧ ref = (s.chan c).draw) ∨
      (s.portPath p).state = .precharge ∧ ∃ k, (s.unit p).contract = some k ∧ ref = k.current) →
    let a := ref + ref / 8
    let x := (s.meter p).excess
    let next := if a < M then min 65535 (x + (M - a)) else x - min x ((a - M) / 4)
    integrate x (allowance (s.reference p)) M = next ∧
    (M < 6000 → next < 4000 → (s.unit p).settleStart = none →
      ∃ t, exec (.sample p v m) s = .next t ∧ (t.meter p).excess = next ∧ (t.unit p).state = (s.unit p).state ∧
        t.path.port = s.path.port ∧ t.path.a = s.path.a ∧ t.path.b = s.path.b) ∧
    (6000 ≤ M ∨ 4000 ≤ next → ∃ u t, exec (.sample p v m) s = .next t ∧ EndsStep s u t p .aborted ∧
      (u.unit p).state = .faulted ∧ (u.portPath p).state = .openPath ∧ (u.meter p).excess = 0)) ∧
  ∀ (s : State) (p : PortId) (v m M : Nat), M = corrected (s.mode.trim.get p).current m 8000 →
    ((s.portPath p).state = .openPath → exec (.sample p v m) s =
      .next { s with pins := { s.pins with sense := s.pins.sense.set p ⟨v, m⟩ } }.refresh) ∧
    ((s.portPath p).state ≠ .openPath →
      6000 ≤ M ∨ 4000 ≤ integrate (s.meter p).excess (allowance (s.reference p)) M →
      (s.stepOn p = false ∨ ∃ r, s.LastStepOn p r) →
      ∃ t, exec (.sample p v m) s = .next t ∧ t.clock = s.clock ∧ t.mode = s.mode ∧
        (t.unit p).state = .faulted ∧ (t.unit p).contract = none ∧ (t.unit p).exchange = none ∧
        (t.unit p).trips = min 3 ((s.unit p).trips + 1) ∧
        (t.unit p).coolDownStart =
          (if min 3 ((s.unit p).trips + 1) < 3 then some s.clock.base else none) ∧
        (t.unit p).restarts = (s.unit p).restarts ∧ (t.unit p).table = (s.unit p).table ∧
        (t.unit p).cable = (s.unit p).cable ∧ (t.unit p).denialCap = (s.unit p).denialCap ∧
        (t.unit p).droopCap = (s.unit p).droopCap ∧
        (t.unit p).resyncStart = none ∧ (t.portPath p).state = .openPath ∧ (t.meter p).excess = 0 ∧
        (t.meter p).droopRun = 0 ∧ (t.meter p).fine = (s.meter p).fine ∧
        (t.meter p).whole = (s.meter p).whole ∧ (t.meter p).capture = (s.meter p).capture ∧
        t.host.flags.get (.port p .trip) = true ∧
        ((s.unit p).contract.isSome = true → t.host.flags.get (.port p .contract) = true) ∧
        t.arb.pending.has ⟨.shed, .port p⟩ = true ∧
        (∀ c, s.channelOf p = some c → t.chan c = ⟨none, 0⟩) ∧ KeepsOthers s t p ∧ KeepsLink s t ∧
        (s.stepOn p = false → t.arb.pending = s.arb.pending.put ⟨.shed, .port p⟩ true) ∧
        ∀ r, s.LastStepOn p r → t.Completed r .aborted) ∧
    ((s.portPath p).state ≠ .openPath →
      6000 ≤ M ∨ 4000 ≤ integrate (s.meter p).excess (allowance (s.reference p)) M →
      ∃ u t, exec (.sample p v m) s = .next t ∧ EndsStep s u t p .aborted ∧ (u.unit p).state = .faulted ∧
        (u.unit p).contract = none ∧ (u.unit p).exchange = none ∧
        (u.unit p).trips = min 3 ((s.unit p).trips + 1) ∧ (u.portPath p).state = .openPath ∧
        u.arb.pending = s.arb.pending.put ⟨.shed, .port p⟩ true ∧
        u.host.flags.get (.port p .trip) = true ∧ KeepsOthers s u p ∧ KeepsLink s t)

/-- A sample of a CLOSED port in FEEDING that is low, V below floor(Vop × 90 / 100), raises the run count, and any other sets it to
0.  At 2 the droop is captured and locked, unless a locked capture stands, and DROOP is set; at 10 the droop cap becomes 75 %
of the contract's power and CHANGE is posted.  A sample whose V lies in the window of an outstanding SETTLE ends it: the port is in
FEEDING, its step is DONE, the raise follows and the Arbiter goes on; any other leaves it.  The count becomes 0 at a sample of a
CLOSED port in any state other than FEEDING, and at a GRANT that changes the contract's operating voltage (R22, R52, R56, R107,
R133, R137, R154 to R156).
The model's own part: assumption log 12. -/
def Obligations.SamplesFindDroops : Prop :=
  (∀ (s : State) (p : PortId) (v m V M : Nat) (k : Contract),
    V = corrected (s.mode.trim.get p).voltage v 30000 → M = corrected (s.mode.trim.get p).current m 8000 →
    (s.portPath p).state = .closed → (s.unit p).state = .feeding → (s.unit p).contract = some k →
    (s.unit p).exchange = none → M < 6000 →
    integrate (s.meter p).excess (allowance (s.reference p)) M < 4000 →
    let low := V < k.vop * 90 / 100
    let run := if low then min 10 ((s.meter p).droopRun + 1) else 0
    let first := (s.meter p).droopRun = 1 ∧ low
    let persistent := (s.meter p).droopRun = 9 ∧ low
    ∃ t, exec (.sample p v m) s = .next t ∧ t.mode = s.mode ∧ KeepsOthers s t p ∧ KeepsLink s t ∧
      t.path.port = s.path.port ∧ t.path.a = s.path.a ∧ t.path.b = s.path.b ∧ (t.meter p).droopRun = run ∧
      (t.meter p).excess = integrate (s.meter p).excess (allowance (s.reference p)) M ∧
      (first → t.host.flags = s.host.flags.put (.port p .droop) true ∧
        ((∀ c, (s.meter p).capture = some c → c.locked = false) →
          (t.meter p).capture = some ⟨s.clock.base, V, M, k.vop, .droop, true⟩)) ∧
      (¬first → t.host.flags = s.host.flags) ∧
      (¬first ∨ (∃ c, (s.meter p).capture = some c ∧ c.locked = true) →
        (t.meter p).capture = (s.meter p).capture) ∧
      (persistent → t.unit p = { s.unit p with droopCap := some (k.power * 75 / 100) } ∧
        t.arb.pending = s.arb.pending.put ⟨.change, .port p⟩ true) ∧
      (¬persistent → t.unit p = s.unit p ∧ t.arb = s.arb)) ∧
  (∀ (s : State) (p : PortId) (v m V M vop : Nat) (start : Time),
    V = corrected (s.mode.trim.get p).voltage v 30000 → M = corrected (s.mode.trim.get p).current m 8000 →
    (s.portPath p).state = .closed → (s.unit p).state = .switching →
    (s.unit p).exchange = some (.settle vop start) → M < 6000 →
    integrate (s.meter p).excess (allowance (s.reference p)) M < 4000 →
    let met := vop - vop / 20 ≤ V ∧ V ≤ vop + vop / 20
    ∃ t, exec (.sample p v m) s = .next t ∧ t.clock = s.clock ∧ t.mode = s.mode ∧
      (t.meter p).droopRun = 0 ∧ (t.meter p).capture = (s.meter p).capture ∧
      (¬met → t.unit p = s.unit p ∧ t.arb = s.arb ∧ KeepsOthers s t p) ∧
      (met → (∃ u, EndsStep s u t p .done ∧
          u.unit p = { s.unit p with state := .feeding, exchange := none } ∧ KeepsOthers s u p ∧
          u.path.port = s.path.port ∧ u.arb.pending = s.arb.pending ∧ u.host.flags = s.host.flags ∧
          (s.stepOn p = false → u.path.a = s.path.a ∧ u.path.b = s.path.b) ∧
          s.path.a.draw ≤ u.path.a.draw ∧ s.path.b.draw ≤ u.path.b.draw) ∧
        ∀ r, s.LastStepOn p r → t.Completed r .done)) ∧
  (∀ (s : State) (p : PortId) (v m M : Nat), M = corrected (s.mode.trim.get p).current m 8000 →
    (s.portPath p).state = .closed → (s.unit p).state ≠ .feeding → (s.unit p).settleStart = none → M < 6000 →
    integrate (s.meter p).excess (allowance (s.reference p)) M < 4000 →
    ∃ t, exec (.sample p v m) s = .next t ∧ (t.meter p).droopRun = 0 ∧
      (t.meter p).excess = integrate (s.meter p).excess (allowance (s.reference p)) M ∧
      (t.meter p).capture = (s.meter p).capture ∧ t.clock = s.clock ∧ t.mode = s.mode ∧ t.units = s.units ∧
      t.arb = s.arb ∧ t.path.port = s.path.port ∧ t.path.a = s.path.a ∧ t.path.b = s.path.b ∧
      t.host.flags = s.host.flags ∧ KeepsOthers s t p ∧ KeepsLink s t) ∧
  (∀ (s : State) (p : PortId) (frame : List Byte) (gen : Gen) (index current : Nat) (purpose : Purpose) (vop attempt : Nat)
    (start : Time) (k : Contract) (d : PendingChange), s.delivers p frame (.grant gen index current) →
    (s.unit p).exchange = some (.claim purpose index current vop (some gen) attempt start) → purpose ≠ .new →
    purpose ≠ .ret → (s.unit p).contract = some k → k.change = some d → k.vop ≠ d.vop →
    ∃ t, exec (.grant p frame) s = .next t ∧ (t.unit p).contract.map Contract.vop = some d.vop ∧
      (t.meter p).droopRun = 0)

/-- An assertion of the rail comparator captures and locks a dip on every CLOSED port whose capture is not locked, sets DIP and wakes
a DORMANT part that selects RAIL_LOW; clearing it moves the rail level alone.  A change of the battery level posts CHANGE GLOBAL
and wakes on BATTERY_CHANGE; a level already read does nothing.  That posting, as any, leaves its entry pending, and takes it off the
covered list of a rebalance in service that covered it, and does nothing else to the rebalance (R44, R50, R142, R157, R177). -/
def Obligations.RailAndBatteryAreWatched : Prop :=
  (∀ s : State, s.prot.railAsserted = some false →
    ∃ t, exec .railLowAssert s = .next t ∧ t.prot.railAsserted = some true ∧ t.pins.railLow = true ∧
      t.host.flags.dip = true ∧ t.units = s.units ∧ t.arb = s.arb ∧ t.path.port = s.path.port ∧
      t.path.a = s.path.a ∧ t.path.b = s.path.b ∧ t.clock = s.clock ∧ KeepsLink s t ∧
      (∀ p, t.meter p =
        if (s.portPath p).state = .closed ∧ ∀ c, (s.meter p).capture = some c → c.locked = false then
          { s.meter p with capture := some ⟨s.clock.base, s.voltage p, s.current p,
            ((s.unit p).contract.map Contract.vop).getD 0, .dip, true⟩ }
        else s.meter p) ∧
      (s.mode.power = .dormant ∧ s.mode.wakeSet.any (·.railLow) = true →
        t.mode = { s.mode with power := .active, wakeSet := none } ∧ t.host.flags.wake = true) ∧
      (¬(s.mode.power = .dormant ∧ s.mode.wakeSet.any (·.railLow) = true) → t.mode = s.mode ∧
        t.host.flags = s.host.flags.put (.whole .dip) true)) ∧
  (∀ s : State, s.prot.railAsserted.isSome = true →
    exec .railLowClear s = .next { s with
      pins := { s.pins with railLow := false }, prot := { s.prot with railAsserted := some false } }.refresh) ∧
  (∀ (s : State) (b : Bool), (s.path.batteryPresent = some b → exec (.batteryChange b) s =
      .next { s with pins := { s.pins with batteryPresent := b } }.refresh) ∧
    (s.path.batteryPresent = some (!b) → ∃ t, exec (.batteryChange b) s = .next t ∧
      t.path.batteryPresent = some b ∧ t.arb.pending = s.arb.pending.put ⟨.change, .whole⟩ true ∧
      Posted s t [⟨.change, .whole⟩] ∧ KeepsService s t ∧
      t.units = s.units ∧ t.prot = s.prot ∧ t.path.port = s.path.port ∧ t.path.a = s.path.a ∧
      t.path.b = s.path.b ∧ t.clock = s.clock ∧ KeepsLink s t ∧
      (s.mode.power = .dormant ∧ s.mode.wakeSet.any (·.batteryChange) = true →
        t.mode = { s.mode with power := .active, wakeSet := none } ∧
        t.host.flags = s.host.flags.put (.whole .wake) true) ∧
      (¬(s.mode.power = .dormant ∧ s.mode.wakeSet.any (·.batteryChange) = true) →
        t.mode = s.mode ∧ t.host.flags = s.host.flags))) ∧
  (∀ (s : State) (l : Level) (o : Origin), Posted s (s.post l o) [⟨l, o⟩] ∧ KeepsService s (s.post l o) ∧
    (s.post l o).units = s.units ∧ (s.post l o).path = s.path ∧ (s.post l o).prot = s.prot ∧
    (s.post l o).mode = s.mode ∧ (s.post l o).host = s.host)

/-! ### The take and the plan -/

/-- TAKE: with a rebalance in service, halted, not ACTIVE, or with nothing unmasked pending, nothing is taken; otherwise the entry
taken is pending and unmasked, and before every other such entry in the order of R47: by level, GLOBAL before any port, by rank,
which is 1 in AUTONOMOUS, and by port number; the covered list holds the others at or below its level.  An empty plan completes at
once as NO_CHANGE, and a plan whose first step is a NEW of a port that speaks hands its claim over (R46 to R49, R52, R57, R58,
R99).  What the Arbiter does while no step is in flight, at a take and at the end of any step (`State.act`): with every step ended
the rebalance completes; halted it waits; preempted, by a pending and unmasked entry above the level taken, it is abandoned; a
step that fails its re-validation is SKIPPED; and any other starts: an END, whose contract ends or is demoted, its draw limit
min(900, Ider), a LOWER, after its cut, a RESTATE or a RAISE, which claim their terms or have them at once, and a NEW, which
claims or begins its precharge in Basic (R10 to R15, R34, R43, R45 to R49, R51 to R60, R62, R128, R131, R139, R144).
The model's own part: assumption logs 7, 8 and 9. -/
def Obligations.TakesServeTheHighestLevel : Prop :=
  (∀ s : State,
    ((s.arb.inService.isSome = true ∨ s.arb.halted = true ∨ s.mode.power ≠ .active ∨
        ∀ e, s.arb.pending.has e = true → s.arb.masked e.level = true) → exec .take s = .next s.refresh) ∧
    (s.arb.inService = none → s.arb.halted = false → s.mode.power = .active →
      ∀ e', s.arb.pending.has e' = true → s.arb.masked e'.level = false →
      ∃ e, s.arb.pending.has e = true ∧ s.arb.masked e.level = false ∧ e'.level.number ≤ e.level.number ∧
        s.NextTaken e ∧
        ((s.plan e.level).steps = [] →
          ∃ t, exec .take s = .next t ∧ t.units = s.units ∧ t.path.port = s.path.port ∧
            t.path.a = s.path.a ∧ t.path.b = s.path.b ∧ t.prot = s.prot ∧ t.mode = s.mode ∧
            t.arb.inService = none ∧ t.arb.lastOutcome = some ⟨e, .noChange, 0, s.clock.base⟩ ∧
            t.host.flags = s.host.flags.put (.whole .rebalance) true ∧
            ((s.plan e.level).deferral = false → t.arb.pending.has e = false) ∧
            (∀ x, s.arb.masked x.level = true → t.arb.pending.has x = s.arb.pending.has x ∨
              x = ⟨.change, .whole⟩)) ∧
        (∀ x, (s.plan e.level).steps.head? = some x → ∀ n, x.index = some n → x.action = .new → n ≠ 0 →
          x.gen = (s.unit x.port).table.gen → (s.unit x.port).state = .standby →
          (s.unit x.port).contract = none → (s.unit x.port).speaks = true → s.channelFree = true →
          ∃ t, exec .take s = .next t ∧ ∃ r, t.arb.inService = some r ∧ r.taken = e ∧
            r.plan = s.plan e.level ∧ r.next = 0 ∧ r.inFlight = true ∧ r.results[0]? = some .inFlight ∧
            t.arb.pending = s.arb.pending.put e false ∧
            t.unit x.port = { s.unit x.port with
              state := .claiming
              exchange := some (.claim .new n x.current (x.vop.getD 0) x.gen 1 s.clock.base)
              line := (s.unit x.port).line.handOver (claimFrame n x.current (x.vop.getD 0) x.gen) } ∧
            KeepsOthers s t x.port ∧ t.path.port = s.path.port ∧ t.path.a = s.path.a ∧
            t.path.b = s.path.b ∧ t.prot = s.prot ∧ t.mode = s.mode ∧ t.host.flags = s.host.flags))) ∧
  (∀ (s : State) (e : PendingEntry), s.arb.inService = none → s.arb.halted = false → s.mode.power = .active →
    s.NextTaken e →
    let left : State := { s with arb := { s.arb with pending := s.arb.pending.put e false } }
    let plan := left.plan e.level
    let record : InService := ⟨e, plan, plan.steps.map fun _ => .waiting, 0, false, plan.reduceOnly,
      left.arb.coveredAt e.level⟩
    s.takeable.head? = some e ∧
    (∀ x, record.covered.has x = true ↔ x ≠ e ∧ s.MayServe x ∧ x.level.number ≤ e.level.number) ∧
    exec .take s =
      .next ({ left with arb := { left.arb with inService := some record } } : State).act.refresh) ∧
  Level.number .shed = 3 ∧ Level.number .loss = 2 ∧ Level.number .change = 1 ∧ Level.number .gain = 0 ∧
  (∀ (s : State) (l : Level), s.arb.masked l = false ↔ s.Unmasked l) ∧
  (∀ (s : State) (r : InService), s.preempted r = true ↔ ∃ e, s.Preempts r e) ∧
  (∀ (s : State) (r : InService), s.arb.inService = some r →
    (r.inFlight = true → s.act = s) ∧
    (r.inFlight = false → r.plan.steps.length ≤ r.next →
      let partly := r.results.any fun x => x == .skipped || x == .failed || x == .aborted
      let t := s.act
      t.arb.inService = none ∧ t.arb.lastOutcome = some ⟨r.taken, if r.plan.steps = [] then .noChange
        else if partly then .partly else .done, r.stepsDone, s.clock.base⟩ ∧ t.host.flags.rebalance = true ∧
      (∀ p, t.host.flags.get (.port p .contract) = (s.host.flags.get (.port p .contract) ||
        (r.plan.steps.zip r.results).any fun x => x.1.port == p && x.2 == .done)) ∧
      (∀ e, t.arb.pending.has e = (s.arb.pending.has e && !(r.covered.has e && !s.arb.masked e.level) ||
        decide (e = ⟨.change, .whole⟩) && (r.plan.deferral || !r.plan.steps.isEmpty && partly))) ∧
      t.units = s.units ∧ t.path = s.path ∧ t.prot = s.prot ∧ t.mode = s.mode ∧ t.clock = s.clock) ∧
    (r.inFlight = false → r.next < r.plan.steps.length →
      (s.arb.halted = true → s.act = s) ∧
      (s.arb.halted = false → (∃ e, s.Preempts r e) → let t := s.act
        t.arb.inService = none ∧ t.arb.pending = s.arb.pending.put r.taken true ∧
        t.arb.lastOutcome = some ⟨r.taken, .abandoned, r.stepsDone, s.clock.base⟩ ∧
        t.host.flags.rebalance = true ∧ t.units = s.units ∧ t.path = s.path ∧ t.prot = s.prot ∧
        t.mode = s.mode))) ∧
  (∀ (s : State) (r : InService) (x : PlanStep), s.AtStep r x →
    (s.revalidates x = true ↔ (s.unit x.port).table.gen = x.gen ∧
      (x.action = .new → (s.unit x.port).state = .standby ∧ (s.unit x.port).contract = none ∧
        (s.path.a.bound = none ∨ s.path.b.bound = none)) ∧
      (x.action ≠ .new → (s.unit x.port).state = .feeding ∧
        classify (s.unit x.port).contract x.terms = some x.action)) ∧
    (s.revalidates x = false →
      let skipped := { r with results := r.results.set r.next .skipped, inFlight := false, next := r.next + 1 }
      s.act = ({ s with arb := { s.arb with inService := some skipped } } : State).act)) ∧
  (∀ (s : State) (r : InService) (x : PlanStep), s.AtStep r x → s.revalidates x = true →
    x.action = .new → let p := x.port
    let index := x.index.getD 0
    let claims := (s.unit p).speaks = true ∧ index ≠ 0
    let good := 4750 ≤ s.voltage p ∧ s.voltage p ≤ 5250
    (claims → let t := s.act
      StepStarted r t ∧ t.unit p = { s.unit p with
        state := .claiming
        exchange := some (.claim .new index x.current (x.vop.getD 0) (s.unit p).table.gen 1 s.clock.base)
        line := (s.unit p).line.handOver
          (claimFrame index x.current (x.vop.getD 0) (s.unit p).table.gen) } ∧
      KeepsOthers s t p ∧ t.path = s.path ∧ t.prot = s.prot ∧ t.mode = s.mode ∧ t.host = s.host ∧
      t.arb.pending = s.arb.pending) ∧
    (∀ c, ¬claims → good → s.freeChannel = some c → let t := s.act
      StepStarted r t ∧ (t.unit p).contract = some ⟨0, .basic, (s.unit p).table.gen, 5000, x.current,
        5000 * x.current / 1000, s.clock.base, none, none⟩ ∧ (t.unit p).state = .switching ∧
      (t.unit p).exchange = (s.unit p).exchange ∧ (t.portPath p).state = .precharge ∧
      (t.portPath p).prechargeStart = some s.clock.base ∧
      (t.portPath p).offerCurrent = some (min 900 (min (s.unit p).cableCurrent 5000)) ∧
      t.chan c = ⟨some p, 0⟩ ∧ t.chan c.other = s.chan c.other ∧ KeepsOthers s t p ∧ t.mode = s.mode ∧
      t.host = s.host ∧ t.arb.pending = s.arb.pending) ∧
    (¬claims → ¬good → ∃ t, s.act = t.act ∧ EndedAtStart r t .failed ∧ (t.unit p).contract = none ∧
      (t.unit p).state = .standby ∧ (t.portPath p).state = .openPath ∧
      (t.unit p).denialCap = some ⟨0, (s.unit p).table.gen⟩ ∧
      t.arb.pending = s.arb.pending.put ⟨.loss, .port p⟩ true ∧
      t.host.flags = s.host.flags.put (.port p .contract) true ∧ KeepsOthers s t p ∧ t.mode = s.mode)) ∧
  (∀ (s : State) (r : InService) (x : PlanStep), s.AtStep r x → s.revalidates x = true →
    x.action = .fin → let p := x.port
    let speaks := (s.unit p).speaks
    (s.soleFeed p = false → ∃ t, s.act = t.act ∧ EndedAtStart r t .done ∧ LostTerms s t p ∧
      t.arb.pending = s.arb.pending) ∧
    (s.soleFeed p = true → speaks = false → ∃ t, s.act = t.act ∧ EndedAtStart r t .failed ∧ LostTerms s t p ∧
      (t.unit p).denialCap = some ⟨((s.unit p).basicTerms s.clock.base).power, (s.unit p).table.gen⟩ ∧
      t.arb.pending = s.arb.pending) ∧
    (s.soleFeed p = true → speaks = true → StepStarted r s.act ∧ LostTerms s s.act p ∧
      s.act.arb.pending = s.arb.pending)) ∧
  (∀ (s : State) (r : InService) (x : PlanStep) (k : Contract) (purpose : Purpose), s.AtStep r x →
    s.revalidates x = true → (s.unit x.port).contract = some k →
    (x.action = .lower ∧ purpose = .lower ∨ x.action = .restate ∧ purpose = .restate ∨
      x.action = .raise ∧ purpose = .raise) →
    let p := x.port
    let index := x.index.getD 0
    let vop := x.vop.getD 0
    let claims := (s.unit p).speaks = true ∧ ¬(k.index = 0 ∧ index = 0)
    let posted (t : State) : Prop :=
      if x.action = .lower then t.arb.pending = s.arb.pending.put
        (if s.mode.limit < s.contractSum then ⟨.shed, .whole⟩ else ⟨.change, .port p⟩) true
      else t.arb.pending = s.arb.pending
    (claims → let t := s.act
      StepStarted r t ∧ (t.unit p).contract =
        some { k with change := some ⟨index, (s.unit p).table.gen, x.current, vop⟩ } ∧
      (t.unit p).state = .claiming ∧
      (t.unit p).exchange = some (.claim purpose index x.current vop (s.unit p).table.gen 1 s.clock.base) ∧
      (t.unit p).line = (s.unit p).line.handOver (claimFrame index x.current vop (s.unit p).table.gen) ∧
      posted t ∧ KeepsOthers s t p ∧ t.path.port = s.path.port ∧ t.mode = s.mode ∧ t.host = s.host ∧
      (∀ c, s.channelOf p = some c → t.chan c.other = s.chan c.other ∧ t.chan c = ⟨(s.chan c).bound,
        if x.action = .lower then min x.current (s.chan c).draw else (s.chan c).draw⟩)) ∧
    (¬claims → ∃ t, s.act = t.act ∧ EndedAtStart r t .done ∧ (t.unit p).contract =
        some { k with current := x.current, power := k.vop * x.current / 1000, since := s.clock.base } ∧
      (t.unit p).state = .feeding ∧ (t.portPath p).ceiling = none ∧
      (t.portPath p).state = (s.portPath p).state ∧ posted t ∧ KeepsOthers s t p ∧ t.mode = s.mode ∧
      t.host = s.host ∧ ∀ c, s.channelOf p = some c → s.path.a.bound ≠ s.path.b.bound →
        (t.chan c).draw ≤ x.current ∧ (t.chan c).draw ≤ t.contractIder p))

/-- A plan is what its eight stages make of the records at the take (Safety.lean's `Stages`): a port that takes part has the best
offer of its table and a figure of min(U, caps); the order goes by rank, key and number; the first candidate gets min(T, Up) and a
second the rest where 5000 mW remain; a target follows at Vop, or none below 100 mA; the contract and the target give the action;
SHED and LOSS under a mask take NEW and RAISE out; a gap in feed with the battery absent moves a NEW ahead, or keeps the earliest
bound port's END; and the steps stand in their order.  A HELD port and one that takes no part have no step.  Where no END is kept,
the target powers add up to no more than the power to be shared, and no more ports have one than there are slots; each port has at
most one step (R23 to R40).
The model's own part: assumption log 21. -/
def Obligations.PlansStayWithinPowerAndSlots : Prop :=
  ∀ (s : State) (l : Level),
    ((∀ p, ((s.plan l).rows.get p).disposition ≠ .kept) →
      (PortId.all.map fun p => ((s.plan l).rows.get p).power).sum ≤ s.sharedPower ∧
      (PortId.all.filter fun p => decide (0 < ((s.plan l).rows.get p).power)).length ≤ s.slots) ∧
    ((s.plan l).steps.map PlanStep.port).Nodup ∧
    ∃ g : Stages, g.Computed s ∧ g.Finished s l (s.plan l)

/-- An allocation becomes a claim current of floor(a × 1000 / Vop / 10) × 10, at most the best offer's Ider, or nothing below
100 mA, and a target power of floor(Vop × Ic / 1000), which is at most the allocation and, for a RANGE offer, at most its
clamped max power (R33). -/
def Obligations.ClaimsStayWithinTheAllocation : Prop :=
  ∀ (a : Nat) (b : OfferFigures), 0 < b.vop →
    let ic := min b.ider (a * 1000 / b.vop / 10 * 10)
    (ic < 100 → targetOf a b = ⟨0, 0, 0⟩) ∧ (100 ≤ ic → targetOf a b = ⟨a, ic, b.vop * ic / 1000⟩) ∧
    (targetOf a b).power ≤ a ∧ (targetOf a b).current ≤ b.ider ∧
    (∀ (u : PortUnit), u.best = some b → ∀ e, u.table.entries[b.index]? = some e → ∀ w, e.clampedPower = some w →
      e.kind = .range → a ≤ b.usable → (targetOf a b).power ≤ w)
end

