-- ==== Sys2Proof/Laws/State.lean ====
section
/-! SUPPORT. One lemma per field per update of the state, and what the port records give back, so that no
later proof unfolds a record update. -/

namespace Sys2Proof

/-! ### Port records -/

@[simp] theorem PerPort.get_set_same {α : Type} (v : PerPort α) (p : PortId) (a : α) :
    (v.set p a).get p = a := by cases p <;> rfl

@[simp] theorem PerPort.get_set_ne {α : Type} (v : PerPort α) (p q : PortId) (a : α) (h : q ≠ p) :
    (v.set p a).get q = v.get q := by cases p <;> cases q <;> first | rfl | exact absurd rfl h

@[simp] theorem PerPort.get_all {α : Type} (a : α) (p : PortId) : (PerPort.all a).get p = a := by
  cases p <;> rfl

@[simp] theorem PerPort.get_map {α β : Type} (f : α → β) (v : PerPort α) (p : PortId) :
    (v.map f).get p = f (v.get p) := by cases p <;> rfl

@[simp] theorem PerPort.set_get {α : Type} (v : PerPort α) (p : PortId) : v.set p (v.get p) = v := by
  cases p <;> rfl

@[simp] theorem PerPort.set_set {α : Type} (v : PerPort α) (p : PortId) (a b : α) :
    (v.set p a).set p b = v.set p b := by cases p <;> rfl

namespace Machine

/-! ### The plain updates -/

@[simp] theorem State.modPins_pending (s : State) (f : Pins → Pins) : (s.modPins f).pending = s.pending := rfl
@[simp] theorem State.modPins_pins (s : State) (f : Pins → Pins) : (s.modPins f).pins = f s.pins := rfl
@[simp] theorem State.modPins_clock (s : State) (f : Pins → Pins) : (s.modPins f).clock = s.clock := rfl
@[simp] theorem State.modPins_mode (s : State) (f : Pins → Pins) : (s.modPins f).mode = s.mode := rfl
@[simp] theorem State.modPins_arb (s : State) (f : Pins → Pins) : (s.modPins f).arb = s.arb := rfl
@[simp] theorem State.modPins_units (s : State) (f : Pins → Pins) : (s.modPins f).units = s.units := rfl
@[simp] theorem State.modPins_path (s : State) (f : Pins → Pins) : (s.modPins f).path = s.path := rfl
@[simp] theorem State.modPins_prot (s : State) (f : Pins → Pins) : (s.modPins f).prot = s.prot := rfl
@[simp] theorem State.modPins_host (s : State) (f : Pins → Pins) : (s.modPins f).host = s.host := rfl

@[simp] theorem State.modMode_pending (s : State) (f : ModeControl → ModeControl) : (s.modMode f).pending = s.pending := rfl
@[simp] theorem State.modMode_pins (s : State) (f : ModeControl → ModeControl) : (s.modMode f).pins = s.pins := rfl
@[simp] theorem State.modMode_clock (s : State) (f : ModeControl → ModeControl) : (s.modMode f).clock = s.clock := rfl
@[simp] theorem State.modMode_mode (s : State) (f : ModeControl → ModeControl) : (s.modMode f).mode = f s.mode := rfl
@[simp] theorem State.modMode_arb (s : State) (f : ModeControl → ModeControl) : (s.modMode f).arb = s.arb := rfl
@[simp] theorem State.modMode_units (s : State) (f : ModeControl → ModeControl) : (s.modMode f).units = s.units := rfl
@[simp] theorem State.modMode_path (s : State) (f : ModeControl → ModeControl) : (s.modMode f).path = s.path := rfl
@[simp] theorem State.modMode_prot (s : State) (f : ModeControl → ModeControl) : (s.modMode f).prot = s.prot := rfl
@[simp] theorem State.modMode_host (s : State) (f : ModeControl → ModeControl) : (s.modMode f).host = s.host := rfl

@[simp] theorem State.modArb_pending (s : State) (f : Arbiter → Arbiter) : (s.modArb f).pending = s.pending := rfl
@[simp] theorem State.modArb_pins (s : State) (f : Arbiter → Arbiter) : (s.modArb f).pins = s.pins := rfl
@[simp] theorem State.modArb_clock (s : State) (f : Arbiter → Arbiter) : (s.modArb f).clock = s.clock := rfl
@[simp] theorem State.modArb_mode (s : State) (f : Arbiter → Arbiter) : (s.modArb f).mode = s.mode := rfl
@[simp] theorem State.modArb_arb (s : State) (f : Arbiter → Arbiter) : (s.modArb f).arb = f s.arb := rfl
@[simp] theorem State.modArb_units (s : State) (f : Arbiter → Arbiter) : (s.modArb f).units = s.units := rfl
@[simp] theorem State.modArb_path (s : State) (f : Arbiter → Arbiter) : (s.modArb f).path = s.path := rfl
@[simp] theorem State.modArb_prot (s : State) (f : Arbiter → Arbiter) : (s.modArb f).prot = s.prot := rfl
@[simp] theorem State.modArb_host (s : State) (f : Arbiter → Arbiter) : (s.modArb f).host = s.host := rfl

@[simp] theorem State.modPath_pending (s : State) (f : PathController → PathController) : (s.modPath f).pending = s.pending := rfl
@[simp] theorem State.modPath_pins (s : State) (f : PathController → PathController) : (s.modPath f).pins = s.pins := rfl
@[simp] theorem State.modPath_clock (s : State) (f : PathController → PathController) : (s.modPath f).clock = s.clock := rfl
@[simp] theorem State.modPath_mode (s : State) (f : PathController → PathController) : (s.modPath f).mode = s.mode := rfl
@[simp] theorem State.modPath_arb (s : State) (f : PathController → PathController) : (s.modPath f).arb = s.arb := rfl
@[simp] theorem State.modPath_units (s : State) (f : PathController → PathController) : (s.modPath f).units = s.units := rfl
@[simp] theorem State.modPath_path (s : State) (f : PathController → PathController) : (s.modPath f).path = f s.path := rfl
@[simp] theorem State.modPath_prot (s : State) (f : PathController → PathController) : (s.modPath f).prot = s.prot := rfl
@[simp] theorem State.modPath_host (s : State) (f : PathController → PathController) : (s.modPath f).host = s.host := rfl

@[simp] theorem State.modProt_pending (s : State) (f : Protection → Protection) : (s.modProt f).pending = s.pending := rfl
@[simp] theorem State.modProt_pins (s : State) (f : Protection → Protection) : (s.modProt f).pins = s.pins := rfl
@[simp] theorem State.modProt_clock (s : State) (f : Protection → Protection) : (s.modProt f).clock = s.clock := rfl
@[simp] theorem State.modProt_mode (s : State) (f : Protection → Protection) : (s.modProt f).mode = s.mode := rfl
@[simp] theorem State.modProt_arb (s : State) (f : Protection → Protection) : (s.modProt f).arb = s.arb := rfl
@[simp] theorem State.modProt_units (s : State) (f : Protection → Protection) : (s.modProt f).units = s.units := rfl
@[simp] theorem State.modProt_path (s : State) (f : Protection → Protection) : (s.modProt f).path = s.path := rfl
@[simp] theorem State.modProt_prot (s : State) (f : Protection → Protection) : (s.modProt f).prot = f s.prot := rfl
@[simp] theorem State.modProt_host (s : State) (f : Protection → Protection) : (s.modProt f).host = s.host := rfl

@[simp] theorem State.modHost_pending (s : State) (f : HostLink → HostLink) : (s.modHost f).pending = s.pending := rfl
@[simp] theorem State.modHost_pins (s : State) (f : HostLink → HostLink) : (s.modHost f).pins = s.pins := rfl
@[simp] theorem State.modHost_clock (s : State) (f : HostLink → HostLink) : (s.modHost f).clock = s.clock := rfl
@[simp] theorem State.modHost_mode (s : State) (f : HostLink → HostLink) : (s.modHost f).mode = s.mode := rfl
@[simp] theorem State.modHost_arb (s : State) (f : HostLink → HostLink) : (s.modHost f).arb = s.arb := rfl
@[simp] theorem State.modHost_units (s : State) (f : HostLink → HostLink) : (s.modHost f).units = s.units := rfl
@[simp] theorem State.modHost_path (s : State) (f : HostLink → HostLink) : (s.modHost f).path = s.path := rfl
@[simp] theorem State.modHost_prot (s : State) (f : HostLink → HostLink) : (s.modHost f).prot = s.prot := rfl
@[simp] theorem State.modHost_host (s : State) (f : HostLink → HostLink) : (s.modHost f).host = f s.host := rfl

/-! ### Updates of one port -/

@[simp] theorem State.modUnit_pending (s : State) (p : PortId) (f : PortUnit → PortUnit) :
    (s.modUnit p f).pending = s.pending := rfl
@[simp] theorem State.modUnit_pins (s : State) (p : PortId) (f : PortUnit → PortUnit) :
    (s.modUnit p f).pins = s.pins := rfl
@[simp] theorem State.modUnit_clock (s : State) (p : PortId) (f : PortUnit → PortUnit) :
    (s.modUnit p f).clock = s.clock := rfl
@[simp] theorem State.modUnit_mode (s : State) (p : PortId) (f : PortUnit → PortUnit) :
    (s.modUnit p f).mode = s.mode := rfl
@[simp] theorem State.modUnit_arb (s : State) (p : PortId) (f : PortUnit → PortUnit) :
    (s.modUnit p f).arb = s.arb := rfl
@[simp] theorem State.modUnit_units (s : State) (p : PortId) (f : PortUnit → PortUnit) :
    (s.modUnit p f).units = s.units.set p (f (s.units.get p)) := rfl
@[simp] theorem State.modUnit_path (s : State) (p : PortId) (f : PortUnit → PortUnit) :
    (s.modUnit p f).path = s.path := rfl
@[simp] theorem State.modUnit_prot (s : State) (p : PortId) (f : PortUnit → PortUnit) :
    (s.modUnit p f).prot = s.prot := rfl
@[simp] theorem State.modUnit_host (s : State) (p : PortId) (f : PortUnit → PortUnit) :
    (s.modUnit p f).host = s.host := rfl

@[simp] theorem State.modPortPath_pending (s : State) (p : PortId) (f : PortPath → PortPath) :
    (s.modPortPath p f).pending = s.pending := rfl
@[simp] theorem State.modPortPath_pins (s : State) (p : PortId) (f : PortPath → PortPath) :
    (s.modPortPath p f).pins = s.pins := rfl
@[simp] theorem State.modPortPath_clock (s : State) (p : PortId) (f : PortPath → PortPath) :
    (s.modPortPath p f).clock = s.clock := rfl
@[simp] theorem State.modPortPath_mode (s : State) (p : PortId) (f : PortPath → PortPath) :
    (s.modPortPath p f).mode = s.mode := rfl
@[simp] theorem State.modPortPath_arb (s : State) (p : PortId) (f : PortPath → PortPath) :
    (s.modPortPath p f).arb = s.arb := rfl
@[simp] theorem State.modPortPath_units (s : State) (p : PortId) (f : PortPath → PortPath) :
    (s.modPortPath p f).units = s.units := rfl
@[simp] theorem State.modPortPath_path (s : State) (p : PortId) (f : PortPath → PortPath) :
    (s.modPortPath p f).path = { s.path with port := s.path.port.set p (f (s.path.port.get p)) } := rfl
@[simp] theorem State.modPortPath_prot (s : State) (p : PortId) (f : PortPath → PortPath) :
    (s.modPortPath p f).prot = s.prot := rfl
@[simp] theorem State.modPortPath_host (s : State) (p : PortId) (f : PortPath → PortPath) :
    (s.modPortPath p f).host = s.host := rfl

@[simp] theorem State.modMeter_pending (s : State) (p : PortId) (f : Meter → Meter) :
    (s.modMeter p f).pending = s.pending := rfl
@[simp] theorem State.modMeter_pins (s : State) (p : PortId) (f : Meter → Meter) :
    (s.modMeter p f).pins = s.pins := rfl
@[simp] theorem State.modMeter_clock (s : State) (p : PortId) (f : Meter → Meter) :
    (s.modMeter p f).clock = s.clock := rfl
@[simp] theorem State.modMeter_mode (s : State) (p : PortId) (f : Meter → Meter) :
    (s.modMeter p f).mode = s.mode := rfl
@[simp] theorem State.modMeter_arb (s : State) (p : PortId) (f : Meter → Meter) :
    (s.modMeter p f).arb = s.arb := rfl
@[simp] theorem State.modMeter_units (s : State) (p : PortId) (f : Meter → Meter) :
    (s.modMeter p f).units = s.units := rfl
@[simp] theorem State.modMeter_path (s : State) (p : PortId) (f : Meter → Meter) :
    (s.modMeter p f).path = s.path := rfl
@[simp] theorem State.modMeter_prot (s : State) (p : PortId) (f : Meter → Meter) :
    (s.modMeter p f).prot = { s.prot with port := s.prot.port.set p (f (s.prot.port.get p)) } := rfl
@[simp] theorem State.modMeter_host (s : State) (p : PortId) (f : Meter → Meter) :
    (s.modMeter p f).host = s.host := rfl

/-! ### What the accessors of a port see of an update -/

@[simp] theorem State.modPins_unit (s : State) (f : Pins → Pins) (p : PortId) :
    (s.modPins f).unit p = s.unit p := rfl
@[simp] theorem State.modMode_unit (s : State) (f : ModeControl → ModeControl) (p : PortId) :
    (s.modMode f).unit p = s.unit p := rfl
@[simp] theorem State.modArb_unit (s : State) (f : Arbiter → Arbiter) (p : PortId) :
    (s.modArb f).unit p = s.unit p := rfl
@[simp] theorem State.modPath_unit (s : State) (f : PathController → PathController) (p : PortId) :
    (s.modPath f).unit p = s.unit p := rfl
@[simp] theorem State.modProt_unit (s : State) (f : Protection → Protection) (p : PortId) :
    (s.modProt f).unit p = s.unit p := rfl
@[simp] theorem State.modHost_unit (s : State) (f : HostLink → HostLink) (p : PortId) :
    (s.modHost f).unit p = s.unit p := rfl
@[simp] theorem State.modPortPath_unit (s : State) (p : PortId) (f : PortPath → PortPath) (q : PortId) :
    (s.modPortPath p f).unit q = s.unit q := rfl
@[simp] theorem State.modMeter_unit (s : State) (p : PortId) (f : Meter → Meter) (q : PortId) :
    (s.modMeter p f).unit q = s.unit q := rfl

@[simp] theorem State.modPins_portPath (s : State) (f : Pins → Pins) (p : PortId) :
    (s.modPins f).portPath p = s.portPath p := rfl
@[simp] theorem State.modMode_portPath (s : State) (f : ModeControl → ModeControl) (p : PortId) :
    (s.modMode f).portPath p = s.portPath p := rfl
@[simp] theorem State.modArb_portPath (s : State) (f : Arbiter → Arbiter) (p : PortId) :
    (s.modArb f).portPath p = s.portPath p := rfl
@[simp] theorem State.modProt_portPath (s : State) (f : Protection → Protection) (p : PortId) :
    (s.modProt f).portPath p = s.portPath p := rfl
@[simp] theorem State.modHost_portPath (s : State) (f : HostLink → HostLink) (p : PortId) :
    (s.modHost f).portPath p = s.portPath p := rfl
@[simp] theorem State.modUnit_portPath (s : State) (p : PortId) (f : PortUnit → PortUnit) (q : PortId) :
    (s.modUnit p f).portPath q = s.portPath q := rfl
@[simp] theorem State.modMeter_portPath (s : State) (p : PortId) (f : Meter → Meter) (q : PortId) :
    (s.modMeter p f).portPath q = s.portPath q := rfl

@[simp] theorem State.modPins_meter (s : State) (f : Pins → Pins) (p : PortId) :
    (s.modPins f).meter p = s.meter p := rfl
@[simp] theorem State.modMode_meter (s : State) (f : ModeControl → ModeControl) (p : PortId) :
    (s.modMode f).meter p = s.meter p := rfl
@[simp] theorem State.modArb_meter (s : State) (f : Arbiter → Arbiter) (p : PortId) :
    (s.modArb f).meter p = s.meter p := rfl
@[simp] theorem State.modPath_meter (s : State) (f : PathController → PathController) (p : PortId) :
    (s.modPath f).meter p = s.meter p := rfl
@[simp] theorem State.modHost_meter (s : State) (f : HostLink → HostLink) (p : PortId) :
    (s.modHost f).meter p = s.meter p := rfl
@[simp] theorem State.modUnit_meter (s : State) (p : PortId) (f : PortUnit → PortUnit) (q : PortId) :
    (s.modUnit p f).meter q = s.meter q := rfl
@[simp] theorem State.modPortPath_meter (s : State) (p : PortId) (f : PortPath → PortPath) (q : PortId) :
    (s.modPortPath p f).meter q = s.meter q := rfl

@[simp] theorem State.modUnit_unit_same (s : State) (p : PortId) (f : PortUnit → PortUnit) :
    (s.modUnit p f).unit p = f (s.unit p) := by simp [State.modUnit, State.unit]

@[simp] theorem State.modUnit_unit_ne (s : State) (p q : PortId) (f : PortUnit → PortUnit) (h : q ≠ p) :
    (s.modUnit p f).unit q = s.unit q := by simp [State.modUnit, State.unit, h]

@[simp] theorem State.modPortPath_portPath_same (s : State) (p : PortId) (f : PortPath → PortPath) :
    (s.modPortPath p f).portPath p = f (s.portPath p) := by simp [State.modPortPath, State.portPath, State.modPath]

@[simp] theorem State.modPortPath_portPath_ne (s : State) (p q : PortId) (f : PortPath → PortPath) (h : q ≠ p) :
    (s.modPortPath p f).portPath q = s.portPath q := by simp [State.modPortPath, State.portPath, State.modPath, h]

@[simp] theorem State.modMeter_meter_same (s : State) (p : PortId) (f : Meter → Meter) :
    (s.modMeter p f).meter p = f (s.meter p) := by simp [State.modMeter, State.meter, State.modProt]

@[simp] theorem State.modMeter_meter_ne (s : State) (p q : PortId) (f : Meter → Meter) (h : q ≠ p) :
    (s.modMeter p f).meter q = s.meter q := by simp [State.modMeter, State.meter, State.modProt, h]

/-! ### The clock -/

@[simp] theorem State.pass_pending (s : State) (us : Nat) : (s.pass us).pending = s.pending := rfl
@[simp] theorem State.pass_pins (s : State) (us : Nat) : (s.pass us).pins = s.pins := rfl
@[simp] theorem State.pass_arb (s : State) (us : Nat) : (s.pass us).arb = s.arb := rfl
@[simp] theorem State.pass_units (s : State) (us : Nat) : (s.pass us).units = s.units := rfl
@[simp] theorem State.pass_path (s : State) (us : Nat) : (s.pass us).path = s.path := rfl
@[simp] theorem State.pass_prot (s : State) (us : Nat) : (s.pass us).prot = s.prot := rfl
@[simp] theorem State.pass_host (s : State) (us : Nat) : (s.pass us).host = s.host := rfl
@[simp] theorem State.waitMs_pending (s : State) (start : Time) (ms : Nat) : (s.waitMs start ms).pending = s.pending := by
  unfold State.waitMs; split <;> rfl
@[simp] theorem State.waitMs_pins (s : State) (start : Time) (ms : Nat) : (s.waitMs start ms).pins = s.pins := by
  unfold State.waitMs; split <;> rfl
@[simp] theorem State.waitMs_arb (s : State) (start : Time) (ms : Nat) : (s.waitMs start ms).arb = s.arb := by
  unfold State.waitMs; split <;> rfl
@[simp] theorem State.waitMs_units (s : State) (start : Time) (ms : Nat) : (s.waitMs start ms).units = s.units := by
  unfold State.waitMs; split <;> rfl
@[simp] theorem State.waitMs_path (s : State) (start : Time) (ms : Nat) : (s.waitMs start ms).path = s.path := by
  unfold State.waitMs; split <;> rfl
@[simp] theorem State.waitMs_prot (s : State) (start : Time) (ms : Nat) : (s.waitMs start ms).prot = s.prot := by
  unfold State.waitMs; split <;> rfl
@[simp] theorem State.waitMs_host (s : State) (start : Time) (ms : Nat) : (s.waitMs start ms).host = s.host := by
  unfold State.waitMs; split <;> rfl
@[simp] theorem State.waitUs_pending (s : State) (start us : Nat) : (s.waitUs start us).pending = s.pending := by
  unfold State.waitUs; split <;> rfl
@[simp] theorem State.waitUs_pins (s : State) (start us : Nat) : (s.waitUs start us).pins = s.pins := by
  unfold State.waitUs; split <;> rfl
@[simp] theorem State.waitUs_arb (s : State) (start us : Nat) : (s.waitUs start us).arb = s.arb := by
  unfold State.waitUs; split <;> rfl
@[simp] theorem State.waitUs_units (s : State) (start us : Nat) : (s.waitUs start us).units = s.units := by
  unfold State.waitUs; split <;> rfl
@[simp] theorem State.waitUs_path (s : State) (start us : Nat) : (s.waitUs start us).path = s.path := by
  unfold State.waitUs; split <;> rfl
@[simp] theorem State.waitUs_prot (s : State) (start us : Nat) : (s.waitUs start us).prot = s.prot := by
  unfold State.waitUs; split <;> rfl
@[simp] theorem State.waitUs_host (s : State) (start us : Nat) : (s.waitUs start us).host = s.host := by
  unfold State.waitUs; split <;> rfl

/-- Time that passes changes nothing of Mode Control but silence elapsed. -/
theorem State.pass_mode (s : State) (us : Nat) :
    (s.pass us).mode = { s.mode with silenceElapsed := (s.pass us).mode.silenceElapsed } := rfl

/-! ### The lines -/

@[simp] theorem State.refresh_pending (s : State) : s.refresh.pending = s.pending := rfl
@[simp] theorem State.refresh_pins (s : State) : s.refresh.pins = s.pins := rfl
@[simp] theorem State.refresh_clock (s : State) : s.refresh.clock = s.clock := rfl
@[simp] theorem State.refresh_mode (s : State) : s.refresh.mode = s.mode := rfl
@[simp] theorem State.refresh_arb (s : State) : s.refresh.arb = s.arb := rfl
@[simp] theorem State.refresh_units (s : State) : s.refresh.units = s.units := rfl
@[simp] theorem State.refresh_prot (s : State) : s.refresh.prot = s.prot := rfl

@[simp] theorem State.refresh_unit (s : State) (p : PortId) : s.refresh.unit p = s.unit p := rfl

@[simp] theorem State.refresh_portPath (s : State) (p : PortId) : s.refresh.portPath p = s.portPath p := rfl

@[simp] theorem State.refresh_meter (s : State) (p : PortId) : s.refresh.meter p = s.meter p := rfl

theorem State.refresh_path (s : State) : s.refresh.path = { s.path with statusOutput := s.statusLevel } := rfl

theorem State.refresh_host (s : State) :
    s.refresh.host = { s.host with readyLine := s.readyLevel, attentionLine := s.attentionLevel } := rfl

end Machine

end Sys2Proof
end

