-- ==== Sys2Proof/Laws/Operations.lean ====
section
/-! SUPPORT. What each shared operation over the state can do, said once: the pending set and the flags, time,
postings, exchanges, paths and draw limits, the end of a contract and the trip, the steps of a rebalance, and a frame's reception. -/

namespace Sys2Proof.Machine

/-! ### Sets of entries and flags -/

/-- The pending set after a put. -/
theorem EntrySet.has_put (e : EntrySet) (x y : PendingEntry) (v : Bool) :
    (e.put x v).has y = if y = x then v else e.has y := by
  obtain ⟨lx, ox⟩ := x
  obtain ⟨ly, oy⟩ := y
  cases lx <;> cases ly <;>
    rcases ox with px | _ <;> rcases oy with py | _ <;>
    first
      | rfl
      | (simp only [EntrySet.put, EntrySet.has, EntrySet.level, OriginSet.put, OriginSet.has]
         by_cases h : py = px
         · subst h; simp
         · simp [h])

/-- The flags after one is written. -/
theorem FlagSet.get_put (x : FlagSet) (f g : Flag) (v : Bool) :
    (x.put f v).get g = if g = f then v else x.get g := by
  rcases f with ⟨p, f⟩ | f <;> rcases g with ⟨q, g⟩ | g
  · by_cases h : q = p
    · subst h; cases f <;> cases g <;> simp [FlagSet.put, FlagSet.get, PortFlags.put, PortFlags.get]
    · simp [FlagSet.put, FlagSet.get, h]
  · cases g <;> simp [FlagSet.put, FlagSet.get]
  · cases f <;> simp [FlagSet.put, FlagSet.get]
  · cases f <;> cases g <;> simp [FlagSet.put, FlagSet.get]

/-- CLEAR_EVENTS keeps the flags it does not list (R189). -/
theorem FlagSet.get_minus (x listed : FlagSet) (f : Flag) :
    (x.minus listed).get f = (x.get f && !listed.get f) := by
  rcases f with ⟨p, f⟩ | f
  · cases p <;> cases f <;> rfl
  · cases f <;> rfl

/-! ### Time -/

/-- Waiting for a moment of the bit timer ends there, or now where it has passed. -/
theorem State.waitUs_bit (s : State) (start us : Nat) :
    (s.waitUs start us).clock.bit = max s.clock.bit (start + us) := by
  unfold State.waitUs
  split
  · omega
  · simp only [State.pass]; omega

/-- Waiting moves the clock and the silence it counts, and nothing else. -/
theorem State.waitUs_eq (s : State) (start us : Nat) :
    s.waitUs start us = { s with
      clock := (s.waitUs start us).clock
      mode := { s.mode with silenceElapsed := (s.waitUs start us).mode.silenceElapsed } } := by
  unfold State.waitUs; split <;> rfl

/-- The same of a wait on the time base. -/
theorem State.waitMs_eq (s : State) (start : Time) (ms : Nat) :
    s.waitMs start ms = { s with
      clock := (s.waitMs start ms).clock
      mode := { s.mode with silenceElapsed := (s.waitMs start ms).mode.silenceElapsed } } := by
  unfold State.waitMs; split <;> rfl

/-- A wait that is over lets no time pass. -/
theorem State.waitMs_of_over {s : State} {start : Time} {ms : Nat} (h : ms ≤ s.since start) :
    s.waitMs start ms = s := by
  simp [State.waitMs, h]

/-- A wait on the time base, of less than its wrap, ends when its duration is over (R147). -/
theorem State.waitMs_since (s : State) (start : Time) (ms : Nat) (h : ms < 4294967296) :
    ms ≤ (s.waitMs start ms).since start := by
  unfold State.waitMs
  split
  · assumption
  · rename_i short
    have passed : (s.clock.bit + ((ms - s.since start) * 1000 - s.clock.bit % 1000)) / 1000 - s.clock.bit / 1000
        = ms - s.since start := by omega
    change ms ≤ (s.clock.base + BitVec.ofNat 32 _ - start).toNat
    rw [passed, BitVec.toNat_sub, BitVec.toNat_add, BitVec.toNat_ofNat]
    unfold State.since at short ⊢
    rw [BitVec.toNat_sub] at short ⊢
    have := s.clock.base.isLt
    have := start.isLt
    omega

/-! ### Postings and flags set -/

@[simp] theorem State.post_pending (s : State) (l : Level) (o : Origin) : (s.post l o).pending = s.pending := rfl
@[simp] theorem State.post_pins (s : State) (l : Level) (o : Origin) : (s.post l o).pins = s.pins := rfl
@[simp] theorem State.post_clock (s : State) (l : Level) (o : Origin) : (s.post l o).clock = s.clock := rfl
@[simp] theorem State.post_mode (s : State) (l : Level) (o : Origin) : (s.post l o).mode = s.mode := rfl
@[simp] theorem State.post_units (s : State) (l : Level) (o : Origin) : (s.post l o).units = s.units := rfl
@[simp] theorem State.post_unit (s : State) (l : Level) (o : Origin) (p : PortId) :
    (s.post l o).unit p = s.unit p := rfl
@[simp] theorem State.post_path (s : State) (l : Level) (o : Origin) : (s.post l o).path = s.path := rfl
@[simp] theorem State.post_prot (s : State) (l : Level) (o : Origin) : (s.post l o).prot = s.prot := rfl
@[simp] theorem State.post_host (s : State) (l : Level) (o : Origin) : (s.post l o).host = s.host := rfl
@[simp] theorem State.post_arb_pending (s : State) (l : Level) (o : Origin) :
    (s.post l o).arb.pending = s.arb.pending.put ⟨l, o⟩ true := rfl
@[simp] theorem State.post_inService (s : State) (l : Level) (o : Origin) :
    (s.post l o).arb.inService =
      s.arb.inService.map fun r => { r with covered := r.covered.put ⟨l, o⟩ false } := rfl
@[simp] theorem State.setFlag_arb (s : State) (f : Flag) : (s.setFlag f).arb = s.arb := rfl
@[simp] theorem State.setFlag_units (s : State) (f : Flag) : (s.setFlag f).units = s.units := rfl
@[simp] theorem State.setFlag_unit (s : State) (f : Flag) (p : PortId) : (s.setFlag f).unit p = s.unit p := rfl
@[simp] theorem State.setFlag_path (s : State) (f : Flag) : (s.setFlag f).path = s.path := rfl
@[simp] theorem State.setFlag_prot (s : State) (f : Flag) : (s.setFlag f).prot = s.prot := rfl
@[simp] theorem State.setFlag_mode (s : State) (f : Flag) : (s.setFlag f).mode = s.mode := rfl
@[simp] theorem State.setFlag_clock (s : State) (f : Flag) : (s.setFlag f).clock = s.clock := rfl
@[simp] theorem State.setFlag_pins (s : State) (f : Flag) : (s.setFlag f).pins = s.pins := rfl
@[simp] theorem State.setFlag_flags (s : State) (f : Flag) :
    (s.setFlag f).host.flags = s.host.flags.put f true := rfl

/-- A posting is pending after it (R44). -/
theorem State.post_has (s : State) (l : Level) (o : Origin) (x : PendingEntry) :
    (s.post l o).arb.pending.has x = (x == ⟨l, o⟩ || s.arb.pending.has x) := by
  rw [State.post_arb_pending, EntrySet.has_put]
  by_cases h : x = ⟨l, o⟩ <;> simp [h]

/-! ### The line's edges -/

/-- A byte taken ends now, and leaves the line high since a moment no earlier than any placed before it. -/
theorem LineInterface.byteTaken_eq (l : LineInterface) (now : Nat) (b : Byte) :
    ∃ rise, l.lastSeen ≤ rise ∧ l.byteTaken now b =
      { l with lastByteEnd := some now, quietStart := some rise, lowStart := none, breakReported := false } :=
  ⟨_, Nat.le_max_right _ _, rfl⟩

/-- A framing error off the part's own break keeps the low run that is still running when its byte can have begun at the
latest, and begins a new one at that moment otherwise. -/
theorem LineInterface.badByte_low {l : LineInterface} (h : l.isBreaking = false) (now : Nat) :
    let start := max (now - byteUs) l.lastSeen
    (l.lowShown = some start → l.badByte now = { l with reception := .hunting, lastByteEnd := some now }) ∧
      (l.lowShown ≠ some start → ∃ quiet, l.badByte now = { l with
        reception := .hunting, lastByteEnd := some now, quietStart := quiet, lowStart := some start
        breakReported := false }) := by
  refine ⟨fun hk => by simp [badByte, hk], fun hk => ?_⟩
  rcases hl : l.lowStart with _ | f
  · exact ⟨l.quietStart, by simp [badByte, h, hk, hl, fall]⟩
  · exact ⟨some (max (now - byteUs) l.lastSeen), by simp [badByte, h, hk, hl, fall, rise]⟩

/-- Is no frame being sent?  Then there are no edges of the part's own to count. -/
@[simp] theorem LineInterface.sentUntil_of_not_sending {l : LineInterface} (h : l.isSending = false) (now : Nat) :
    l.sentUntil now = l := by
  unfold LineInterface.sentUntil
  unfold LineInterface.isSending at h
  split
  · rename_i x hx; simp [hx] at h
  all_goals rfl

/-- A line on which the part sends nothing is not stopped. -/
@[simp] theorem LineInterface.stops_of_not_sending {l : LineInterface} (h : l.isSending = false) (now : Nat)
    (low : Bool) : l.stops now low = l := by
  simp [LineInterface.stops, h]

/-- Edges move quiet start, low-run start and break reported alone (R126). -/
theorem LineInterface.follow_eq (l : LineInterface) (t : Nat) (bits : List Bool) :
    ∃ quiet low reported, l.follow t bits =
      { l with quietStart := quiet, lowStart := low, breakReported := reported } := by
  induction bits generalizing l t with
  | nil => exact ⟨_, _, _, rfl⟩
  | cons high rest ih =>
    obtain ⟨a, b, c, h⟩ := ih (if high then (if l.lowStart.isSome then l.rise t else l) else l.fall t) (t + bitUs)
    refine ⟨a, b, c, ?_⟩
    rw [LineInterface.follow, h]
    cases high
    · simp only [LineInterface.fall]; cases l.lowStart <;> rfl
    · cases l.lowStart <;> rfl

/-- A frame stopped moves quiet start, low-run start and break reported alone (R124, R126). -/
theorem LineInterface.stops_eq (l : LineInterface) (now : Nat) (low : Bool) :
    ∃ quiet run reported, l.stops now low =
      { l with quietStart := quiet, lowStart := run, breakReported := reported } := by
  have sent : ∃ quiet run reported, l.sentUntil now =
      { l with quietStart := quiet, lowStart := run, breakReported := reported } := by
    unfold LineInterface.sentUntil
    split
    · exact l.follow_eq _ _
    all_goals exact ⟨_, _, _, rfl⟩
  obtain ⟨a, b, c, h⟩ := sent
  unfold LineInterface.stops
  split
  · simp only [h]
    split
    · exact ⟨some now, none, c, rfl⟩
    · exact ⟨a, b, c, rfl⟩
  · exact ⟨_, _, _, rfl⟩

/-- A line found low moves quiet start, low-run start and break reported alone (R123, R126). -/
theorem LineInterface.metLow_eq (l : LineInterface) (now : Nat) :
    ∃ quiet run reported, l.metLow now =
      { l with quietStart := quiet, lowStart := run, breakReported := reported } := by
  unfold LineInterface.metLow
  split
  · rename_i start _
    obtain ⟨a, b, c, h⟩ := l.follow_eq start ((frameBits (l.held.getD [])).take ((now - start) / bitUs))
    simp only [h, LineInterface.fall]
    cases b <;> exact ⟨_, _, _, rfl⟩
  all_goals exact ⟨_, _, _, rfl⟩

/-- A collision leaves BACKOFF with the frame held, and the third the line without its frame (R123). -/
theorem LineInterface.collide_eq (l : LineInterface) (now : Nat) :
    ∃ quiet run reported, l.collide now =
      { l with
        quietStart := quiet, lowStart := run, breakReported := reported
        transmitter := if l.collisions < 2 then .backoff else .idle
        collisions := if l.collisions < 2 then l.collisions + 1 else 0
        held := if l.collisions < 2 then l.held else none } := by
  obtain ⟨a, b, c, h⟩ := l.metLow_eq now
  refine ⟨a, b, c, ?_⟩
  simp only [LineInterface.collide, h]
  split <;> rfl

/-- No frame is being sent after a collision (R123). -/
@[simp] theorem LineInterface.collide_isSending (l : LineInterface) (now : Nat) : (l.collide now).isSending = false := by
  obtain ⟨a, b, c, h⟩ := l.collide_eq now
  rw [h]
  unfold LineInterface.isSending
  split
  · rename_i x hx; dsimp only at hx; split at hx <;> cases hx
  · rfl

/-! ### Exchanges -/

/-- Giving up an exchange writes the exchange and the line of one port (R113). -/
theorem State.giveUp_eq (s : State) (p : PortId) :
    ∃ line, (s.giveUp p) = s.modUnit p fun u => { u with exchange := none, line := line } := by
  unfold State.giveUp
  split
  · exact ⟨s.withdrawn p, rfl⟩
  · exact ⟨s.withdrawn p, rfl⟩
  · exact ⟨(s.unit p).line, rfl⟩

/-- Of the port's record it writes the same two. -/
theorem State.giveUp_unit (s : State) (p : PortId) :
    ∃ line, (s.giveUp p).unit p = { s.unit p with exchange := none, line := line } := by
  obtain ⟨line, given⟩ := s.giveUp_eq p
  exact ⟨line, by simp [given]⟩

@[simp] theorem State.giveUp_clock (s : State) (p : PortId) : (s.giveUp p).clock = s.clock := by
  obtain ⟨line, given⟩ := s.giveUp_eq p
  simp [given]

/-! ### Paths and draw limits -/

/-- Moving a draw limit moves the draw limits alone. -/
theorem State.modDraw_eq (s : State) (p : PortId) (f : Nat → Nat) :
    ∃ a b, s.modDraw p f = { s with path := { s.path with
      a := { s.path.a with draw := a }, b := { s.path.b with draw := b } } } := by
  unfold State.modDraw
  split
  · rename_i c _
    cases c
    · exact ⟨f s.path.a.draw, s.path.b.draw, rfl⟩
    · exact ⟨s.path.a.draw, f s.path.b.draw, rfl⟩
  · exact ⟨s.path.a.draw, s.path.b.draw, rfl⟩

/-- The raise of one channel moves its draw limit alone, and never down (R137). -/
theorem State.raiseChannel_eq (s : State) (c : ChannelId) :
    ∃ a b, s.path.a.draw ≤ a ∧ s.path.b.draw ≤ b ∧ s.raiseChannel c = { s with path := { s.path with
      a := { s.path.a with draw := a }, b := { s.path.b with draw := b } } } := by
  unfold State.raiseChannel
  split
  · exact ⟨_, _, le_refl _, le_refl _, rfl⟩
  · split
    · exact ⟨_, _, le_refl _, le_refl _, rfl⟩
    · rename_i p _ _ k _
      split
      · by_cases up : (s.chan c).draw <
          min (underCeiling (min k.current (s.contractIder p)) (s.portPath p).ceiling) (s.headroom c k.vop)
        · simp only [up, if_true]
          cases c
          · exact ⟨_, s.path.b.draw, le_of_lt up, le_refl _, rfl⟩
          · exact ⟨s.path.a.draw, _, le_refl _, le_of_lt up, rfl⟩
        · simp only [up, if_false]
          exact ⟨_, _, le_refl _, le_refl _, rfl⟩
      · exact ⟨_, _, le_refl _, le_refl _, rfl⟩

/-- The raise moves the draw limits alone, and never down (R137). -/
theorem State.raise_eq (s : State) :
    ∃ a b, s.path.a.draw ≤ a ∧ s.path.b.draw ≤ b ∧ s.raise = { s with path := { s.path with
      a := { s.path.a with draw := a }, b := { s.path.b with draw := b } } } := by
  obtain ⟨a, b, ha, hb, h⟩ := s.raiseChannel_eq .a
  obtain ⟨a', b', ha', hb', h'⟩ := (s.raiseChannel .a).raiseChannel_eq .b
  refine ⟨a', b', ?_, ?_, ?_⟩
  · rw [h] at ha'; exact le_trans ha ha'
  · rw [h] at hb'; exact le_trans hb hb'
  · unfold State.raise; rw [h', h]

/-- Opening a path writes the port's path, accumulator, run count and clean run, and the two channels (R86, R134, R149). -/
theorem State.openPath_eq (s : State) (p : PortId) :
    ∃ a b, s.openPath p = { s with
      units := s.units.set p { s.units.get p with cleanRunStart := none },
      path := { s.path with port := s.path.port.set p ⟨.openPath, none, none, none⟩, a := a, b := b },
      prot := { s.prot with
        port := s.prot.port.set p { s.prot.port.get p with excess := 0, droopRun := 0 } } } := by
  unfold State.openPath
  cases s.channelOf p with
  | some c =>
    obtain ⟨a, b, -, -, h⟩ := State.raise_eq (((((s.modPortPath p fun _ => ⟨.openPath, none, none, none⟩).modMeter p
      fun m => { m with excess := 0, droopRun := 0 }).modUnit p fun u => { u with cleanRunStart := none }).modChan c
      fun _ => ⟨none, 0⟩))
    dsimp only
    rw [h]
    cases c <;> exact ⟨_, _, rfl⟩
  | none => exact ⟨s.path.a, s.path.b, rfl⟩

/-- What opening a path leaves of the port's record: its clean run alone is written (R86). -/
@[simp] theorem State.openPath_unit (s : State) (p : PortId) :
    (s.openPath p).unit p = { s.unit p with cleanRunStart := none } := by
  obtain ⟨a, b, opened⟩ := s.openPath_eq p
  simp [opened, State.unit]

@[simp] theorem State.openPath_clock (s : State) (p : PortId) : (s.openPath p).clock = s.clock := by
  obtain ⟨a, b, opened⟩ := s.openPath_eq p
  simp [opened]

/-! ### The end of a contract, and the trip -/

/-- What the end of a contract leaves of the port's record (R15): the contract, the exchange with its line, and the clean run
are written, and all else stands. -/
theorem State.endContract_unit (s : State) (p : PortId) :
    ∃ line, (s.endContract p).unit p =
      { s.unit p with contract := none, exchange := none, line := line, cleanRunStart := none } := by
  obtain ⟨line, given⟩ := s.giveUp_unit p
  exact ⟨line, by simp [State.endContract, given]⟩

@[simp] theorem State.endContract_clock (s : State) (p : PortId) : (s.endContract p).clock = s.clock := by
  simp [State.endContract]

/-- What a trip leaves of its port's record: what R85 lists is written, and all else stands, the table, the cable record and
both caps among it (R87; DESIGN CHOICE for the caps, assumption log 22). -/
theorem State.tripPort_unit (s : State) (p : PortId) :
    ∃ line, (s.tripPort p).unit p = { s.unit p with
      state := .faulted, contract := none, exchange := none, line := line, trips := min 3 ((s.unit p).trips + 1)
      discoveryStart := none, cleanRunStart := none, resyncStart := none
      coolDownStart := if min 3 ((s.unit p).trips + 1) < 3 then some s.clock.base else none } := by
  obtain ⟨line, given⟩ := s.giveUp_unit p
  rcases held : (s.unit p).contract with _ | k
  · exact ⟨line, by simp [State.tripPort, given, held, State.now, countTop]⟩
  · obtain ⟨line', ended⟩ := (s.giveUp p).endContract_unit p
    exact ⟨line', by simp [State.tripPort, given, ended, held, State.now, countTop]⟩

/-! ### The lines that follow, and the outcome of a command -/

/-- Every command answers a next state. -/
theorem finish_eq (s : State) : finish s = .next s.refresh := rfl

/-- After the refresh the three lines are at their levels. -/
theorem State.refresh_linesFollow (s : State) : s.refresh.LinesFollow := ⟨rfl, rfl, rfl⟩

/-! ### Reception -/

/-- A frame that reads as a message is complete. -/
theorem frameComplete_of_readFrame {frame : List Byte} {m : Message} (h : readFrame frame = some m) :
    frameComplete frame = true := by
  unfold readFrame at h
  split at h
  · split at h
    · rename_i both
      simp only [Bool.and_eq_true] at both
      exact both.1
    · cases h
  · cases h

/-- A port that acts on frames is not OFF. -/
theorem PortUnit.not_off_of_listens {u : PortUnit} (h : u.listens = true) : u.state ≠ .off := by
  intro off
  simp [PortUnit.listens, off, PortState.isProven] at h

/-! ### The end of a rebalance -/

/-- With every step ended, the Arbiter completes the rebalance (R57). -/
theorem State.act_of_all_ended {s : State} {r : InService} (h : s.arb.inService = some r)
    (idle : r.inFlight = false) (done : r.plan.steps.length ≤ r.next) : s.act = s.complete r := by
  have none : r.step = none := by simp [InService.step, done]
  simp [State.act, h, State.proceed, idle, none]

/-- With no rebalance in service the Arbiter does nothing. -/
theorem State.act_of_none {s : State} (h : s.arb.inService = none) : s.act = s := by
  simp [State.act, h]

/-- With no step in flight on the port, the event's own effects are all there is. -/
theorem State.endingStep_of_not {s : State} {p : PortId} (h : s.stepOn p = false) (x : StepResult)
    (f : State → State) : s.endingStep p x f = f s := by
  simp [State.endingStep, h]

/-- With no step in flight on the port, no step ends. -/
theorem State.stepEnds_of_not {s : State} {p : PortId} (h : s.stepOn p = false) (x : StepResult) :
    s.stepEnds p x = s := by
  simp [State.stepEnds, h]

end Sys2Proof.Machine
end

