-- ==== Sys2Proof/Laws/Arbiter.lean ====
section
/-! SUPPORT. What the Arbiter may take and in which order (R45 to R47), which entries a take covers (R48) and which preempt
(R59), and what a posting does to the pending set and the covered list (R44, R50). -/

namespace Sys2Proof.Machine

/-! ### The take order -/

/-- Does port `p` stand before `q` among the ports of one level (R47)? -/
def PortId.Earlier (rank : PortId → Nat) (p q : PortId) : Prop :=
  rank p < rank q ∨ rank p = rank q ∧ p.number < q.number

/-- An insertion adds its port and nothing else. -/
@[simp] theorem mem_insertByRank {rank : PortId → Nat} {p q : PortId} {l : List PortId} :
    q ∈ insertByRank rank p l ↔ q = p ∨ q ∈ l := by
  induction l with
  | nil => simp [insertByRank]
  | cons x rest ih =>
    unfold insertByRank
    split
    · simp
    · simp only [List.mem_cons, ih]
      exact or_left_comm

/-- An insertion of a port above every number in a list keeps its order. -/
theorem insertByRank_sorted {rank : PortId → Nat} {p : PortId} {l : List PortId}
    (hl : l.Pairwise (PortId.Earlier rank)) (hp : ∀ q ∈ l, q.number < p.number) :
    (insertByRank rank p l).Pairwise (PortId.Earlier rank) := by
  induction l with
  | nil => simp [insertByRank]
  | cons x rest ih =>
    obtain ⟨hx, hr⟩ := List.pairwise_cons.mp hl
    have hn := hp x List.mem_cons_self
    unfold insertByRank
    split
    · rename_i h
      refine List.pairwise_cons.mpr ⟨fun q hq => ?_, hl⟩
      rcases List.mem_cons.mp hq with rfl | hq
      · exact .inl h
      · have := hx q hq
        unfold PortId.Earlier at this ⊢
        omega
    · rename_i h
      refine List.pairwise_cons.mpr ⟨fun q hq => ?_, ih hr fun q hq => hp q (List.mem_cons_of_mem x hq)⟩
      rcases mem_insertByRank.mp hq with rfl | hq
      · unfold PortId.Earlier
        omega
      · exact hx q hq

/-- Insertions of ports in number order, one by one, hold each of them and stand in order. -/
theorem foldl_insertByRank {rank : PortId → Nat} {l m : List PortId} (hl : l.Pairwise (PortId.Earlier rank))
    (hm : m.Pairwise fun p q => p.number < q.number) (hd : ∀ p ∈ l, ∀ q ∈ m, p.number < q.number) :
    (∀ q, q ∈ m.foldl (fun l p => insertByRank rank p l) l ↔ q ∈ l ∨ q ∈ m) ∧
      (m.foldl (fun l p => insertByRank rank p l) l).Pairwise (PortId.Earlier rank) := by
  induction m generalizing l with
  | nil => exact ⟨by simp, hl⟩
  | cons x rest ih =>
    obtain ⟨hx, hr⟩ := List.pairwise_cons.mp hm
    have := ih (insertByRank_sorted hl fun p hp => hd p hp x List.mem_cons_self) hr fun p hp q hq => by
      rcases mem_insertByRank.mp hp with rfl | hp
      · exact hx q hq
      · exact hd p hp q (List.mem_cons_of_mem x hq)
    refine ⟨fun q => (this.1 q).trans ?_, this.2⟩
    simp only [mem_insertByRank, List.mem_cons]
    tauto

/-- The ports by rank hold every port, in order (R47). -/
theorem State.portsByRank_spec (s : State) :
    (∀ p, p ∈ s.portsByRank) ∧ s.portsByRank.Pairwise (PortId.Earlier s.rankRead) := by
  have h := foldl_insertByRank (rank := s.rankRead) (l := []) (m := PortId.all) List.Pairwise.nil (by decide) (by simp)
  exact ⟨fun p => (h.1 p).mpr (.inr (by cases p <;> decide)), h.2⟩

/-- The rank that the order reads is 1 in AUTONOMOUS (R47). -/
theorem State.rankRead_eq (s : State) (p : PortId) :
    s.rankRead p = if s.mode.authority = .autonomous then 1 else (s.unit p).rank := by
  unfold State.rankRead
  cases s.mode.authority <;> rfl

/-- Every entry has its place in the take order, which stands as R47 says. -/
theorem State.takeOrder_spec (s : State) : (∀ e, e ∈ s.takeOrder) ∧ s.takeOrder.Pairwise s.TakenBefore := by
  obtain ⟨all, sorted⟩ := s.portsByRank_spec
  constructor
  · rintro ⟨l, o⟩
    refine List.mem_flatMap.mpr ⟨l, by cases l <;> decide, ?_⟩
    rcases o with p | _
    · exact List.mem_cons_of_mem _ (List.mem_map.mpr ⟨p, all p, rfl⟩)
    · exact List.mem_cons_self
  · refine List.pairwise_flatMap.mpr ⟨fun l _ => ?_, ?_⟩
    · refine List.pairwise_cons.mpr ⟨?_, List.pairwise_map.mpr (sorted.imp ?_)⟩
      · rintro x hx
        obtain ⟨p, -, rfl⟩ := List.mem_map.mp hx
        exact .inr ⟨rfl, trivial⟩
      · intro p q h
        simp only [PortId.Earlier, s.rankRead_eq] at h
        exact .inr ⟨rfl, h⟩
    · have levels : [Level.shed, .loss, .change, .gain].Pairwise fun l m => m.number < l.number := by decide
      refine levels.imp fun {l m} h x hx y hy => ?_
      have hl : x.level = l := by
        rcases List.mem_cons.mp hx with rfl | hx
        · rfl
        · obtain ⟨p, -, rfl⟩ := List.mem_map.mp hx; rfl
      have hm : y.level = m := by
        rcases List.mem_cons.mp hy with rfl | hy
        · rfl
        · obtain ⟨p, -, rfl⟩ := List.mem_map.mp hy; rfl
      exact .inl (by rw [hl, hm]; exact h)

/-- No entry is taken before itself, nor two each before the other. -/
theorem State.TakenBefore.not_back {s : State} {e x : PendingEntry} (h : s.TakenBefore e x) : ¬s.TakenBefore x e := by
  obtain ⟨le, oe⟩ := e
  obtain ⟨lx, ox⟩ := x
  rcases oe with p | _ <;> rcases ox with q | _ <;> simp only [State.TakenBefore] at * <;> rintro (hb | ⟨rfl, hb⟩) <;>
    rcases h with h | ⟨hl, h⟩ <;> first | omega | (subst hl; omega)

/-! ### What may be taken, and what preempts -/

/-- A level that is not masked (R45). -/
theorem State.masked_eq_false (s : State) (l : Level) : s.arb.masked l = false ↔ s.Unmasked l := by
  cases l <;> simp [Arbiter.masked, State.Unmasked]

/-- The entries that may be taken are the pending ones of an unmasked level (R46). -/
theorem State.mem_takeable {s : State} {e : PendingEntry} : e ∈ s.takeable ↔ s.MayServe e := by
  simp [State.takeable, State.MayServe, s.takeOrder_spec.1 e, ← s.masked_eq_false]

/-- The entry that a take takes is the first that may be taken (R47). -/
theorem State.takeable_head {s : State} {e : PendingEntry} : s.takeable.head? = some e ↔ s.NextTaken e := by
  have sorted : s.takeable.Pairwise s.TakenBefore := s.takeOrder_spec.2.filter _
  constructor
  · intro h
    obtain ⟨rest, eq⟩ := List.head?_eq_some_iff.mp h
    rw [eq] at sorted
    refine ⟨State.mem_takeable.mp (by simp [eq]), fun x hx ne => ?_⟩
    have := State.mem_takeable.mpr hx
    rw [eq] at this
    exact (List.pairwise_cons.mp sorted).1 x ((List.mem_cons.mp this).resolve_left ne)
  · rintro ⟨he, first⟩
    rcases eq : s.takeable with _ | ⟨x, rest⟩
    · have := State.mem_takeable.mpr he
      simp [eq] at this
    · by_cases h : x = e
      · simp [h]
      · have hx : s.MayServe x := State.mem_takeable.mp (by simp [eq])
        have hm := State.mem_takeable.mpr he
        rw [eq] at sorted hm
        exact absurd ((List.pairwise_cons.mp sorted).1 e ((List.mem_cons.mp hm).resolve_left (Ne.symm h)))
          (first x hx h).not_back

/-- A rebalance is preempted where an entry preempts it (R59). -/
theorem State.preempted_iff {s : State} {r : InService} : s.preempted r = true ↔ ∃ e, s.Preempts r e := by
  simp [State.preempted, State.Preempts, State.mem_takeable]

/-- No entry preempts a rebalance that is not preempted. -/
theorem State.not_preempts {s : State} {r : InService} (h : s.preempted r = false) (e : PendingEntry) :
    ¬s.Preempts r e := fun he => by
  rw [State.preempted_iff.mpr ⟨e, he⟩] at h
  cases h

/-- The entries that a take at a level covers (R48). -/
theorem Arbiter.coveredAt_has (a : Arbiter) (l : Level) (x : PendingEntry) :
    (a.coveredAt l).has x = (a.pending.has x && !a.masked x.level && decide (x.level.number ≤ l.number)) := by
  obtain ⟨lx, ox⟩ := x
  have : (a.coveredAt l).has ⟨lx, ox⟩ =
      (if a.masked lx ∨ l.number < lx.number then (⟨false, .all false⟩ : OriginSet) else a.pending.level lx).has ox := by
    cases lx <;> rfl
  rw [this]
  have empty : (⟨false, .all false⟩ : OriginSet).has ox = false := by
    rcases ox with p | _
    · cases p <;> rfl
    · rfl
  change _ = ((a.pending.level lx).has ox && !a.masked lx && decide (lx.number ≤ l.number))
  split
  · rename_i h
    rcases h with h | h
    · simp [empty, h]
    · simp [empty, Nat.not_le.mpr h]
  · rename_i h
    simp only [not_or, Nat.not_lt, Bool.not_eq_true] at h
    simp [h.1, h.2]

/-! ### What a posting does -/

/-- A posting leaves its entry pending, and off the covered list of a rebalance in service (R44, R50). -/
theorem State.post_posted (s : State) (l : Level) (o : Origin) : Posted s (s.post l o) [⟨l, o⟩] := by
  refine ⟨fun x => ?_, fun r hr => ⟨{ r with covered := r.covered.put ⟨l, o⟩ false }, by simp [hr], fun x => ?_⟩⟩
  · rw [State.post_has]
    by_cases h : x = ⟨l, o⟩ <;> simp [h]
  · simp only [EntrySet.has_put]
    by_cases h : x = ⟨l, o⟩ <;> simp [h]

/-- Of a rebalance in service a posting moves the covered list alone (R50). -/
theorem State.post_keepsService (s : State) (l : Level) (o : Origin) : KeepsService s (s.post l o) := by
  unfold KeepsService
  rcases h : s.arb.inService with _ | r <;> simp [h, withCoveredOf]

end Sys2Proof.Machine
end

