-- ==== Sys2Proof/Laws/Offers.lean ====
section
/-! SUPPORT. What judging an offer makes of it (R2, R4, R5, R8), and when a contract is VALID (R17). -/

namespace Sys2Proof.Machine

/-- An offer's entry is that of its tests (R4, R5). -/
theorem judge_judged (cable : Nat) (o : SentOffer) : Judged cable o (judge cable o) := by
  rcases o with ⟨v, i⟩ | ⟨lo, hi, w⟩
  · by_cases bad : v < 5000 ∨ 20000 < v ∨ cable < v <;> by_cases above : 5000 < i <;>
      simp [Judged, judge, judgeFixed, basicVoltage, maxVoltage, portCurrent, bad, above] <;> omega
  · by_cases bad : hi < lo ∨ hi < 5000 ∨ min 20000 cable < max lo 5000 <;>
      by_cases above : min 20000 cable < hi ∨ 100000 < w <;>
      simp only [Judged, judge, judgeRange, basicVoltage, maxVoltage, maxPower, bad, above, if_true, if_false] <;>
      simp <;> omega

/-- An entry computed again is that of the same tests against the new cable (R6, R8). -/
theorem rejudge_rejudged (cable : Nat) (e : Entry) : Rejudged cable e (rejudge cable e) :=
  ⟨fun h => by simp only [rejudge, h]; rfl, fun o h => by simp only [rejudge, h]; exact judge_judged cable o⟩

/-- The verdict is VALID where the table keeps the contract valid, and INVALID elsewhere (R17). -/
theorem OfferTable.verdict_eq_valid (t : OfferTable) (k : Contract) : t.verdict k = .valid ↔ t.Validates k := by
  unfold verdict Validates
  rcases k.kind with _ | _ | _
  · simp
  · rcases t.entries[k.index]? with _ | ⟨_ | (_ | _), _, _, c | _, _⟩ <;> simp [Entry.kind]
  · rcases t.entries[k.index]? with _ | ⟨_ | (_ | _), _, _, _, c | _⟩ <;> simp [Entry.kind]

end Sys2Proof.Machine
end

