-- ==== Sys2Proof/Laws/PerInstr.lean ====
section
/-! SUPPORT. One statement about every command, and its lemma for each constructor. -/

namespace Sys2Proof.Laws

/-- The payload a request command spells has the length that R195 gives for its kind. -/
def EncodedLength.Statement (i : Instr) : Prop :=
  ∀ r payload, i.request = some (r, payload) → payload.length = r.length

/-- What closes each case: the command is no request, or its payload is written out. -/
theorem EncodedLength.of_request {i : Instr} (x : Option (Request × List Byte)) (h : i.request = x)
    (hx : ∀ y, x = some y → y.2.length = y.1.length) : EncodedLength.Statement i := by
  intro r payload e
  exact hx (r, payload) (h ▸ e)

theorem EncodedLength.getStatus : EncodedLength.Statement .getStatus :=
  EncodedLength.of_request _ rfl (by rintro _ ⟨⟩; rfl)

theorem EncodedLength.getPort (port : Byte) : EncodedLength.Statement (.getPort port) :=
  EncodedLength.of_request _ rfl (by rintro _ ⟨⟩; rfl)

theorem EncodedLength.getOffers (port : Byte) : EncodedLength.Statement (.getOffers port) :=
  EncodedLength.of_request _ rfl (by rintro _ ⟨⟩; rfl)

theorem EncodedLength.getPlan : EncodedLength.Statement .getPlan :=
  EncodedLength.of_request _ rfl (by rintro _ ⟨⟩; rfl)

theorem EncodedLength.takeControl (demand limit : Word32) : EncodedLength.Statement (.takeControl demand limit) :=
  EncodedLength.of_request _ rfl (by rintro _ ⟨⟩; rfl)

theorem EncodedLength.releaseControl : EncodedLength.Statement .releaseControl :=
  EncodedLength.of_request _ rfl (by rintro _ ⟨⟩; rfl)

theorem EncodedLength.setDemand (demand : Word32) : EncodedLength.Statement (.setDemand demand) :=
  EncodedLength.of_request _ rfl (by rintro _ ⟨⟩; rfl)

theorem EncodedLength.setLimit (limit : Word32) : EncodedLength.Statement (.setLimit limit) :=
  EncodedLength.of_request _ rfl (by rintro _ ⟨⟩; rfl)

theorem EncodedLength.setPort (port rank derate mode : Byte) : EncodedLength.Statement (.setPort port rank derate mode) :=
  EncodedLength.of_request _ rfl (by rintro _ ⟨⟩; rfl)

theorem EncodedLength.portEnable (port : Byte) : EncodedLength.Statement (.portEnable port) :=
  EncodedLength.of_request _ rfl (by rintro _ ⟨⟩; rfl)

theorem EncodedLength.portDisable (port : Byte) : EncodedLength.Statement (.portDisable port) :=
  EncodedLength.of_request _ rfl (by rintro _ ⟨⟩; rfl)

theorem EncodedLength.portRestart (port : Byte) : EncodedLength.Statement (.portRestart port) :=
  EncodedLength.of_request _ rfl (by rintro _ ⟨⟩; rfl)

theorem EncodedLength.setMask (masks : Byte) : EncodedLength.Statement (.setMask masks) :=
  EncodedLength.of_request _ rfl (by rintro _ ⟨⟩; rfl)

theorem EncodedLength.halt : EncodedLength.Statement .halt :=
  EncodedLength.of_request _ rfl (by rintro _ ⟨⟩; rfl)

theorem EncodedLength.resume : EncodedLength.Statement .resume :=
  EncodedLength.of_request _ rfl (by rintro _ ⟨⟩; rfl)

theorem EncodedLength.snapshot : EncodedLength.Statement .snapshot :=
  EncodedLength.of_request _ rfl (by rintro _ ⟨⟩; rfl)

theorem EncodedLength.clearEnergy (port : Byte) : EncodedLength.Statement (.clearEnergy port) :=
  EncodedLength.of_request _ rfl (by rintro _ ⟨⟩; rfl)

theorem EncodedLength.getCapture (port : Byte) : EncodedLength.Statement (.getCapture port) :=
  EncodedLength.of_request _ rfl (by rintro _ ⟨⟩; rfl)

theorem EncodedLength.getEvents : EncodedLength.Statement .getEvents :=
  EncodedLength.of_request _ rfl (by rintro _ ⟨⟩; rfl)

theorem EncodedLength.clearEvents (flags : Word32) : EncodedLength.Statement (.clearEvents flags) :=
  EncodedLength.of_request _ rfl (by rintro _ ⟨⟩; rfl)

theorem EncodedLength.setEventMask (flags : Word32) : EncodedLength.Statement (.setEventMask flags) :=
  EncodedLength.of_request _ rfl (by rintro _ ⟨⟩; rfl)

theorem EncodedLength.setSilence (seconds : Byte) : EncodedLength.Statement (.setSilence seconds) :=
  EncodedLength.of_request _ rfl (by rintro _ ⟨⟩; rfl)

theorem EncodedLength.sleep (wake : Byte) : EncodedLength.Statement (.sleep wake) :=
  EncodedLength.of_request _ rfl (by rintro _ ⟨⟩; rfl)

theorem EncodedLength.softReset : EncodedLength.Statement .softReset :=
  EncodedLength.of_request _ rfl (by rintro _ ⟨⟩; rfl)

theorem EncodedLength.serveErrorEntry : EncodedLength.Statement .serveErrorEntry :=
  EncodedLength.of_request _ rfl (by rintro _ ⟨⟩)

theorem EncodedLength.hostStartByte : EncodedLength.Statement .hostStartByte :=
  EncodedLength.of_request _ rfl (by rintro _ ⟨⟩)

theorem EncodedLength.requestFrameComplete (bytes : List Byte) : EncodedLength.Statement (.requestFrameComplete bytes) :=
  EncodedLength.of_request _ rfl (by rintro _ ⟨⟩)

theorem EncodedLength.hostFrameGapTimeout : EncodedLength.Statement .hostFrameGapTimeout :=
  EncodedLength.of_request _ rfl (by rintro _ ⟨⟩)

theorem EncodedLength.hostFramingError : EncodedLength.Statement .hostFramingError :=
  EncodedLength.of_request _ rfl (by rintro _ ⟨⟩)

theorem EncodedLength.replySent : EncodedLength.Statement .replySent :=
  EncodedLength.of_request _ rfl (by rintro _ ⟨⟩)

theorem EncodedLength.powerOn (release : Option Board) : EncodedLength.Statement (.powerOn release) :=
  EncodedLength.of_request _ rfl (by rintro _ ⟨⟩)

theorem EncodedLength.supplyLow (release : Option Board) : EncodedLength.Statement (.supplyLow release) :=
  EncodedLength.of_request _ rfl (by rintro _ ⟨⟩)

theorem EncodedLength.pinReset (release : Option Board) : EncodedLength.Statement (.pinReset release) :=
  EncodedLength.of_request _ rfl (by rintro _ ⟨⟩)

theorem EncodedLength.startingEnd : EncodedLength.Statement .startingEnd :=
  EncodedLength.of_request _ rfl (by rintro _ ⟨⟩)

theorem EncodedLength.silenceExpiry : EncodedLength.Statement .silenceExpiry :=
  EncodedLength.of_request _ rfl (by rintro _ ⟨⟩)

theorem EncodedLength.presenceAssert (p : PortId) : EncodedLength.Statement (.presenceAssert p) :=
  EncodedLength.of_request _ rfl (by rintro _ ⟨⟩)

theorem EncodedLength.presenceLoss (p : PortId) : EncodedLength.Statement (.presenceLoss p) :=
  EncodedLength.of_request _ rfl (by rintro _ ⟨⟩)

theorem EncodedLength.debounceEnd (p : PortId) : EncodedLength.Statement (.debounceEnd p) :=
  EncodedLength.of_request _ rfl (by rintro _ ⟨⟩)

theorem EncodedLength.detach (p : PortId) : EncodedLength.Statement (.detach p) :=
  EncodedLength.of_request _ rfl (by rintro _ ⟨⟩)

theorem EncodedLength.discoveryTimeout (p : PortId) : EncodedLength.Statement (.discoveryTimeout p) :=
  EncodedLength.of_request _ rfl (by rintro _ ⟨⟩)

theorem EncodedLength.coolDownEnd (p : PortId) : EncodedLength.Statement (.coolDownEnd p) :=
  EncodedLength.of_request _ rfl (by rintro _ ⟨⟩)

theorem EncodedLength.cleanRunEnd (p : PortId) : EncodedLength.Statement (.cleanRunEnd p) :=
  EncodedLength.of_request _ rfl (by rintro _ ⟨⟩)

theorem EncodedLength.offers (p : PortId) (frame : List Byte) : EncodedLength.Statement (.offers p frame) :=
  EncodedLength.of_request _ rfl (by rintro _ ⟨⟩)

theorem EncodedLength.grant (p : PortId) (frame : List Byte) : EncodedLength.Statement (.grant p frame) :=
  EncodedLength.of_request _ rfl (by rintro _ ⟨⟩)

theorem EncodedLength.deny (p : PortId) (frame : List Byte) : EncodedLength.Statement (.deny p frame) :=
  EncodedLength.of_request _ rfl (by rintro _ ⟨⟩)

theorem EncodedLength.ready (p : PortId) (frame : List Byte) : EncodedLength.Statement (.ready p frame) :=
  EncodedLength.of_request _ rfl (by rintro _ ⟨⟩)

theorem EncodedLength.rating (p : PortId) (frame : List Byte) : EncodedLength.Statement (.rating p frame) :=
  EncodedLength.of_request _ rfl (by rintro _ ⟨⟩)

theorem EncodedLength.dialogueFrameReject (p : PortId) (frame : List Byte) : EncodedLength.Statement (.dialogueFrameReject p frame) :=
  EncodedLength.of_request _ rfl (by rintro _ ⟨⟩)

theorem EncodedLength.lineGapTimeout (p : PortId) : EncodedLength.Statement (.lineGapTimeout p) :=
  EncodedLength.of_request _ rfl (by rintro _ ⟨⟩)

theorem EncodedLength.breakReceived (p : PortId) : EncodedLength.Statement (.breakReceived p) :=
  EncodedLength.of_request _ rfl (by rintro _ ⟨⟩)

theorem EncodedLength.startOfFrameReport (p : PortId) : EncodedLength.Statement (.startOfFrameReport p) :=
  EncodedLength.of_request _ rfl (by rintro _ ⟨⟩)

theorem EncodedLength.transmitStart (p : PortId) : EncodedLength.Statement (.transmitStart p) :=
  EncodedLength.of_request _ rfl (by rintro _ ⟨⟩)

theorem EncodedLength.collision (p : PortId) : EncodedLength.Statement (.collision p) :=
  EncodedLength.of_request _ rfl (by rintro _ ⟨⟩)

theorem EncodedLength.backoffRetry (p : PortId) : EncodedLength.Statement (.backoffRetry p) :=
  EncodedLength.of_request _ rfl (by rintro _ ⟨⟩)

theorem EncodedLength.frameSent (p : PortId) : EncodedLength.Statement (.frameSent p) :=
  EncodedLength.of_request _ rfl (by rintro _ ⟨⟩)

theorem EncodedLength.breakRelease (p : PortId) : EncodedLength.Statement (.breakRelease p) :=
  EncodedLength.of_request _ rfl (by rintro _ ⟨⟩)

theorem EncodedLength.queryWaitExpiry (p : PortId) : EncodedLength.Statement (.queryWaitExpiry p) :=
  EncodedLength.of_request _ rfl (by rintro _ ⟨⟩)

theorem EncodedLength.claimWaitExpiry (p : PortId) : EncodedLength.Statement (.claimWaitExpiry p) :=
  EncodedLength.of_request _ rfl (by rintro _ ⟨⟩)

theorem EncodedLength.readyTimeout (p : PortId) : EncodedLength.Statement (.readyTimeout p) :=
  EncodedLength.of_request _ rfl (by rintro _ ⟨⟩)

theorem EncodedLength.settleTimeout (p : PortId) : EncodedLength.Statement (.settleTimeout p) :=
  EncodedLength.of_request _ rfl (by rintro _ ⟨⟩)

theorem EncodedLength.resyncExpiry (p : PortId) : EncodedLength.Statement (.resyncExpiry p) :=
  EncodedLength.of_request _ rfl (by rintro _ ⟨⟩)

theorem EncodedLength.windowExpiry (p : PortId) : EncodedLength.Statement (.windowExpiry p) :=
  EncodedLength.of_request _ rfl (by rintro _ ⟨⟩)

theorem EncodedLength.prechargeEnd (p : PortId) : EncodedLength.Statement (.prechargeEnd p) :=
  EncodedLength.of_request _ rfl (by rintro _ ⟨⟩)

theorem EncodedLength.sample (p : PortId) (voltage current : Nat) : EncodedLength.Statement (.sample p voltage current) :=
  EncodedLength.of_request _ rfl (by rintro _ ⟨⟩)

theorem EncodedLength.railLowAssert : EncodedLength.Statement .railLowAssert :=
  EncodedLength.of_request _ rfl (by rintro _ ⟨⟩)

theorem EncodedLength.railLowClear : EncodedLength.Statement .railLowClear :=
  EncodedLength.of_request _ rfl (by rintro _ ⟨⟩)

theorem EncodedLength.batteryChange (present : Bool) : EncodedLength.Statement (.batteryChange present) :=
  EncodedLength.of_request _ rfl (by rintro _ ⟨⟩)

theorem EncodedLength.take : EncodedLength.Statement .take :=
  EncodedLength.of_request _ rfl (by rintro _ ⟨⟩)

theorem EncodedLength.syncByteTaken (p : PortId) : EncodedLength.Statement (.syncByteTaken p) :=
  EncodedLength.of_request _ rfl (by rintro _ ⟨⟩)

theorem EncodedLength.lineFramingError (p : PortId) :
    EncodedLength.Statement (.lineFramingError p) :=
  EncodedLength.of_request _ rfl (by rintro _ ⟨⟩)

theorem EncodedLength.resetCauseEnd (cause : HardReset) (board : Board) : EncodedLength.Statement (.resetCauseEnd cause board) :=
  EncodedLength.of_request _ rfl (by rintro _ ⟨⟩)

end Sys2Proof.Laws
end

