-- ==== Sys2Proof/Laws/Planner.lean ====
section
/-! SUPPORT. What the Planner's best offer is (R26 to R28), and what its order holds and how it stands (R30). -/

namespace Sys2Proof.Machine

/-! ### The best offer -/

/-- The figures of an entry of the table are those of its index (R26, R27). -/
theorem Entry.figures_eq_some {u : PortUnit} {e : Entry} {i : Nat} {f : OfferFigures}
    (he : u.table.entries[i]? = some e) :
    e.figures i u.cableCurrent u.derate = some f ↔ f.index = i ∧ f.Of u := by
  obtain ⟨j, vop, ider, usable⟩ := f
  have hc : u.cableCurrent = (u.cable.map CableRecord.current).getD 3000 := rfl
  constructor
  · intro h
    unfold Entry.figures at h
    split at h
    · cases h
    · cases h
    · rename_i v hv hne
      cases h
      refine ⟨rfl, e, he, hne, hv, ?_⟩
      simp only [← hc]
      cases hk : e.kind <;> simp [Entry.effective, derated, powerAt, hk, basicCurrent, portCurrent]
  · rintro ⟨rfl, e', he', hne, hv, hi, hu⟩
    obtain rfl : e = e' := Option.some.inj (he.symm.trans he')
    simp only [← hc] at hi hu
    unfold Entry.figures
    split
    · exact absurd ‹_› hne
    · simp_all
    · rename_i v hv' _
      obtain rfl : v = vop := Option.some.inj (hv'.symm.trans hv)
      cases hk : e.kind <;> simp_all [Entry.effective, derated, powerAt, basicCurrent, portCurrent]

/-- `f` is at least as good an offer as `g` (R28). -/
def OfferFigures.AtLeast (f g : OfferFigures) : Prop :=
  g.usable < f.usable ∨ g.usable = f.usable ∧ (f.vop < g.vop ∨ f.vop = g.vop ∧ f.index ≤ g.index)

/-- Of two offers in index order, the test keeps one that is at least as good as either. -/
theorem OfferFigures.better_atLeast {f b : OfferFigures} (h : b.index ≤ f.index) :
    (f.better b = true → f.AtLeast b) ∧ (f.better b = false → b.AtLeast f) := by
  simp only [better, AtLeast, Bool.or_eq_true, Bool.or_eq_false_iff, Bool.and_eq_true, decide_eq_true_eq,
    Bool.and_eq_false_iff, decide_eq_false_iff_not]
  omega

/-- The comparison is transitive. -/
theorem OfferFigures.AtLeast.trans {f g h : OfferFigures} (hfg : f.AtLeast g) (hgh : g.AtLeast h) : f.AtLeast h := by
  unfold AtLeast at *
  omega

/-- The fold's result is an offer of the table, at least as good as each offer that it has passed. -/
theorem bestOf_spec {u : PortUnit} {n : Nat} {l : List Entry} {best : Option OfferFigures}
    (hl : ∀ i e, l[i]? = some e → u.table.entries[n + i]? = some e)
    (hb : ∀ b, best = some b → b.Of u ∧ b.index < n)
    (hn : ∀ g : OfferFigures, g.Of u → g.index < n → ∃ b, best = some b ∧ b.AtLeast g) :
    let r := bestOf u.cableCurrent u.derate (l.zipIdx n) best
    (∀ f, r = some f → f.Of u ∧ f.index < n + l.length) ∧
      ∀ g : OfferFigures, g.Of u → g.index < n + l.length → ∃ f, r = some f ∧ f.AtLeast g := by
  induction l generalizing n best with
  | nil => exact ⟨by simpa [bestOf] using hb, by simpa [bestOf] using hn⟩
  | cons e rest ih =>
    have he : u.table.entries[n]? = some e := by simpa using hl 0 e rfl
    simp only [List.zipIdx_cons, bestOf, List.length_cons]
    have hlen : n + (rest.length + 1) = n + 1 + rest.length := by omega
    rw [hlen]
    refine ih (fun i e' h => ?_) ?_ ?_
    · have := hl (i + 1) e' (by simpa using h)
      rwa [show n + 1 + i = n + (i + 1) by omega]
    · intro b h
      rcases hf : e.figures n u.cableCurrent u.derate with _ | f <;> rcases best with _ | b' <;>
        simp only [hf] at h
      · cases h
      · cases h
        exact ⟨(hb _ rfl).1, Nat.lt_succ_of_lt (hb _ rfl).2⟩
      · cases h
        have := (Entry.figures_eq_some he).mp hf
        exact ⟨this.2, by omega⟩
      · have hf' := (Entry.figures_eq_some he).mp hf
        split at h <;> cases h
        · exact ⟨hf'.2, by omega⟩
        · exact ⟨(hb _ rfl).1, Nat.lt_succ_of_lt (hb _ rfl).2⟩
    · intro g hg hi
      rcases Nat.lt_succ_iff_lt_or_eq.mp hi with hi | hi
      · obtain ⟨b, rfl, hbg⟩ := hn g hg hi
        rcases hf : e.figures n u.cableCurrent u.derate with _ | f
        · exact ⟨b, by simp, hbg⟩
        · have hf' := (Entry.figures_eq_some he).mp hf
          have hcmp := OfferFigures.better_atLeast (f := f) (b := b) (by have := (hb b rfl).2; omega)
          by_cases h : f.better b = true
          · exact ⟨f, by simp [h], (hcmp.1 h).trans hbg⟩
          · exact ⟨b, by simp [h], hbg⟩
      · have hf := (Entry.figures_eq_some he).mpr ⟨hi, hg⟩
        rcases best with _ | b
        · exact ⟨g, by simp [hf], by simp [OfferFigures.AtLeast]⟩
        · have hcmp := OfferFigures.better_atLeast (f := g) (b := b) (by have := (hb b rfl).2; omega)
          by_cases h : g.better b = true
          · exact ⟨g, by simp [hf, h], by simp [OfferFigures.AtLeast]⟩
          · exact ⟨b, by simp [hf, h], hcmp.2 (by simpa using h)⟩

/-- A port's best offer is the best of its table (R28). -/
theorem PortUnit.best_eq_some {u : PortUnit} {f : OfferFigures} (h : u.best = some f) : f.IsBest u := by
  have hs := bestOf_spec (u := u) (n := 0) (l := u.table.entries) (best := none) (by simp) (by simp) (by simp)
  refine ⟨(hs.1 f h).1, fun g hg => ?_⟩
  obtain ⟨e, he, -⟩ := id hg
  have hlt : g.index < u.table.entries.length := (List.getElem?_eq_some_iff.mp he).1
  obtain ⟨f', h', hfg⟩ := hs.2 g hg (by omega)
  obtain rfl : f = f' := Option.some.inj (h.symm.trans h')
  exact hfg

/-- A port has no best offer only where its table offers nothing. -/
theorem PortUnit.best_eq_none {u : PortUnit} (h : u.best = none) (f : OfferFigures) : ¬f.Of u := by
  intro hf
  have hs := bestOf_spec (u := u) (n := 0) (l := u.table.entries) (best := none) (by simp) (by simp) (by simp)
  obtain ⟨e, he, -⟩ := id hf
  have hlt : f.index < u.table.entries.length := (List.getElem?_eq_some_iff.mp he).1
  obtain ⟨f', h', -⟩ := hs.2 f hf (by omega)
  exact absurd (h.symm.trans h') nofun

/-! ### The order -/

/-- Of two ports of the order, one stands before the other. -/
theorem Ordered.before_total {a b : Ordered} (h : a.port ≠ b.port) : a.before b = true ∨ b.before a = true := by
  have hn : a.port.number ≠ b.port.number := fun e => h (by
    revert e
    cases a.port <;> cases b.port <;> decide)
  simp only [before, Bool.or_eq_true, Bool.and_eq_true, decide_eq_true_eq]
  omega

/-- The order is transitive. -/
theorem Ordered.before_trans {a b c : Ordered} (hab : a.before b = true) (hbc : b.before c = true) :
    a.before c = true := by
  simp only [before, Bool.or_eq_true, Bool.and_eq_true, decide_eq_true_eq] at *
  omega

/-- An insertion adds its element and nothing else. -/
@[simp] theorem mem_insertOrdered {x y : Ordered} {l : List Ordered} :
    y ∈ insertOrdered x l ↔ y = x ∨ y ∈ l := by
  induction l with
  | nil => simp [insertOrdered]
  | cons z rest ih =>
    unfold insertOrdered
    split
    · simp
    · simp only [List.mem_cons, ih]
      exact or_left_comm

/-- An insertion of a new port keeps a list in order. -/
theorem insertOrdered_sorted {x : Ordered} {l : List Ordered} (hl : l.Pairwise (fun a b => a.before b = true))
    (hx : ∀ y ∈ l, y.port ≠ x.port) : (insertOrdered x l).Pairwise (fun a b => a.before b = true) := by
  induction l with
  | nil => simp [insertOrdered]
  | cons z rest ih =>
    obtain ⟨hz, hr⟩ := List.pairwise_cons.mp hl
    unfold insertOrdered
    split
    · rename_i h
      refine List.pairwise_cons.mpr ⟨fun y hy => ?_, hl⟩
      rcases List.mem_cons.mp hy with rfl | hy
      · exact h
      · exact Ordered.before_trans h (hz y hy)
    · rename_i h
      have hzx := (Ordered.before_total (hx z List.mem_cons_self)).resolve_right h
      refine List.pairwise_cons.mpr ⟨fun y hy => ?_, ih hr fun y hy => hx y (List.mem_cons_of_mem z hy)⟩
      rcases mem_insertOrdered.mp hy with rfl | hy
      · exact hzx
      · exact hz y hy

/-- Insertions of some elements, one by one, hold them with those there before. -/
theorem mem_foldl_insertOrdered {l m : List Ordered} {x : Ordered} :
    x ∈ m.foldl (fun l x => insertOrdered x l) l ↔ x ∈ l ∨ x ∈ m := by
  induction m generalizing l with
  | nil => simp
  | cons y rest ih =>
    simp only [List.foldl_cons, ih, mem_insertOrdered, List.mem_cons]
    exact or_right_comm.trans or_assoc |>.trans (by tauto)

/-- Insertions of elements of distinct ports, one by one, leave a list in order. -/
theorem foldl_insertOrdered_sorted {l m : List Ordered} (hl : l.Pairwise (fun a b => a.before b = true))
    (hm : m.Pairwise fun a b => a.port ≠ b.port) (hd : ∀ x ∈ l, ∀ y ∈ m, x.port ≠ y.port) :
    (m.foldl (fun l x => insertOrdered x l) l).Pairwise (fun a b => a.before b = true) := by
  induction m generalizing l with
  | nil => exact hl
  | cons y rest ih =>
    obtain ⟨hy, hr⟩ := List.pairwise_cons.mp hm
    refine ih (insertOrdered_sorted hl fun x hx => hd x hx y List.mem_cons_self) hr fun x hx z hz => ?_
    rcases mem_insertOrdered.mp hx with rfl | hx
    · exact hy z hz
    · exact hd x hx z (List.mem_cons_of_mem y hz)

/-- An element of the order is its port's. -/
theorem State.ordered_port {s : State} {p : PortId} {x : Ordered} (h : s.ordered p = some x) : x.port = p := by
  unfold State.ordered at h
  dsimp only at h
  split at h
  · cases h; rfl
  · cases h

/-- The order holds the ports that take part, with their place keys. -/
theorem State.mem_order {s : State} {x : Ordered} : x ∈ s.order ↔ s.ordered x.port = some x := by
  simp only [State.order, mem_foldl_insertOrdered, List.mem_filterMap, List.not_mem_nil, false_or]
  constructor
  · rintro ⟨p, -, h⟩
    rwa [State.ordered_port h]
  · exact fun h => ⟨x.port, by cases x.port <;> decide, h⟩

/-- The order stands by rank, key and port number (R30). -/
theorem State.order_sorted (s : State) : s.order.Pairwise (fun a b => a.before b = true) := by
  refine foldl_insertOrdered_sorted List.Pairwise.nil ?_ (by simp)
  refine List.pairwise_filterMap.mpr ?_
  have hn : PortId.all.Pairwise (· ≠ ·) := by decide
  exact hn.imp fun h x hx y hy e => h ((State.ordered_port hx).symm.trans (e.trans (State.ordered_port hy)))

end Sys2Proof.Machine
end

