-- ==== Sys2Proof/Laws/Requests.lean ====
section
/-! SUPPORT. What the server's shared operations can do: admitting an entry, serving it, naming a port. -/

namespace Sys2Proof.Machine

/-- An entry whose turn it is leaves the queue, and nothing else moves. -/
theorem State.admit_of_turn {s : State} {r : Request} {payload : List Byte} {rest : List QueueEntry}
    (h : s.turn r payload rest) (checked : Bool) :
    s.takeUp (goodEntry r payload) checked = some (s.dequeued rest) := by
  obtain ⟨active, idle, queue⟩ := h
  simp [State.takeUp, State.serverFree, active, idle, queue, State.modHost, State.dequeued]

/-- A request whose turn it is: its work on the state without the entry, and its reply. -/
theorem State.serve_of_turn {s : State} {r : Request} {payload : List Byte} {rest : List QueueEntry}
    (h : s.turn r payload rest) (work : State → Answer) :
    s.serve r payload work = (work (s.dequeued rest)).reply (some r.code) := by
  simp [State.serve, State.admit_of_turn h]

/-- A request the server may not serve now leaves the state as it is. -/
theorem State.serve_of_not_admitted {s : State} {r : Request} {payload : List Byte}
    (h : s.takeUp (goodEntry r payload) true = none) (work : State → Answer) :
    s.serve r payload work = s := by
  simp [State.serve, h]

/-- A port byte of a port up to the strap port count names that port. -/
theorem State.namedPort_of_number {s : State} {b : Byte} {p : PortId} (name : b.toNat = p.number)
    (count : p.number ≤ s.mode.straps.portCount) : s.namedPort b = some p := by
  simp only [State.namedPort, PortId.all]
  cases p <;> simp_all [PortId.number]

/-- A port byte that names no port up to the strap port count. -/
theorem State.namedPort_eq_none {s : State} {b : Byte}
    (h : ∀ p : PortId, b.toNat = p.number → s.mode.straps.portCount < p.number) : s.namedPort b = none := by
  simp only [State.namedPort]
  rw [List.find?_eq_none]
  intro p _ hp
  have hp : p.number = b.toNat ∧ p.number ≤ s.mode.straps.portCount := by simpa using hp
  have := h p hp.1.symm
  omega

/-- What a named port's work gives. -/
theorem State.onPort_of_number {s : State} {b : Byte} {p : PortId} (name : b.toNat = p.number)
    (count : p.number ≤ s.mode.straps.portCount) (work : State → PortId → Answer) :
    s.onPort b work = work s p := by
  simp [State.onPort, State.namedPort_of_number name count]

/-- BAD_PORT for any other byte (R185). -/
theorem State.onPort_eq_badPort {s : State} {b : Byte}
    (h : ∀ p : PortId, b.toNat = p.number → s.mode.straps.portCount < p.number)
    (work : State → PortId → Answer) : s.onPort b work = s.answer .badPort := by
  simp [State.onPort, State.namedPort_eq_none h]

/-- In DIRECTED authority the work is done (R169). -/
theorem State.inDirected_of_directed {s : State} (h : s.mode.authority = .directed)
    (work : State → Answer) : s.inDirected work = work s := by
  simp [State.inDirected, h]

/-- In AUTONOMOUS authority it is refused (R169). -/
theorem State.inDirected_of_autonomous {s : State} (h : s.mode.authority = .autonomous)
    (work : State → Answer) : s.inDirected work = s.answer .notDirected := by
  simp [State.inDirected, h]

@[simp] theorem State.dequeued_mode (s : State) (rest : List QueueEntry) : (s.dequeued rest).mode = s.mode := rfl
@[simp] theorem State.dequeued_arb (s : State) (rest : List QueueEntry) : (s.dequeued rest).arb = s.arb := rfl
@[simp] theorem State.dequeued_units (s : State) (rest : List QueueEntry) : (s.dequeued rest).units = s.units := rfl
@[simp] theorem State.dequeued_unit (s : State) (rest : List QueueEntry) (p : PortId) :
    (s.dequeued rest).unit p = s.unit p := rfl
@[simp] theorem State.dequeued_portPath (s : State) (rest : List QueueEntry) (p : PortId) :
    (s.dequeued rest).portPath p = s.portPath p := rfl
@[simp] theorem State.dequeued_meter (s : State) (rest : List QueueEntry) (p : PortId) :
    (s.dequeued rest).meter p = s.meter p := rfl
@[simp] theorem State.dequeued_path (s : State) (rest : List QueueEntry) : (s.dequeued rest).path = s.path := rfl
@[simp] theorem State.dequeued_prot (s : State) (rest : List QueueEntry) : (s.dequeued rest).prot = s.prot := rfl
@[simp] theorem State.dequeued_pins (s : State) (rest : List QueueEntry) : (s.dequeued rest).pins = s.pins := rfl
@[simp] theorem State.dequeued_clock (s : State) (rest : List QueueEntry) : (s.dequeued rest).clock = s.clock := rfl

end Sys2Proof.Machine
end

