-- ==== Sys2Proof/Tests/Slice0.lean ====
section
/-! SUPPORT. Tests of the model.  Expected values come from the manual's worked cases and tables, or are worked out by
hand from its rules; each test names its source.  The second half shows, for each statement with hypotheses, states
and operands that meet them. -/

namespace Sys2Proof.Tests

open Sys2Proof.Machine

set_option Elab.async false

/-! ### Small states -/

/-- A part that is ACTIVE in DIRECTED authority, D and L at 140,000 mW, every port in EMPTY. -/
def on : State :=
  { State.reset with
    mode := { State.reset.mode with power := .active, authority := .directed }
    units := .all { PortUnit.reset true with state := .empty, presence := some ⟨false, 0⟩ }
    path := { PathController.reset with batteryPresent := some true }
    prot := { State.reset.prot with railAsserted := some false } }

/-- A port with a proven supply, in some state, its table written from a menu. -/
def port (x : PortState) (gen : Gen) (menu : List SentOffer) (cable : Option CableRecord := none) : PortUnit :=
  { PortUnit.reset true with
    state := x, presence := some ⟨true, 0⟩, cable := cable
    table := storedTable ((cable.map CableRecord.voltage).getD 20000) gen .adapter menu }

/-- A contract with no change and no window. -/
def terms (index : Nat) (kind : OfferKind) (gen : Gen) (vop current : Nat) : Contract :=
  ⟨index, kind, some gen, vop, current, powerAt vop current, 0, none, none⟩

/-- Put a port record in place. -/
def withPort (s : State) (p : PortId) (u : PortUnit) : State := s.modUnit p fun _ => u

/-- Close a port's path on a channel with a draw limit. -/
def feed (p : PortId) (c : ChannelId) (draw offer : Nat) (s : State) : State :=
  (s.modChan c fun _ => ⟨some p, draw⟩).modPortPath p fun _ => ⟨.closed, none, some offer, none⟩

/-- A part with one request at the head of its queue. -/
def asked (s : State) (r : Request) (payload : List Byte) : State :=
  s.modHost fun h => { h with queue := [goodEntry r payload] }

/-- The state a command leaves. -/
def after (i : Instr) (s : State) : State :=
  match exec i s with
  | .next t => t
  | .fault _ => s
  | .refused _ => s

/-- The status of the reply in progress after a command. -/
def answered (i : Instr) (s : State) : Option Status := (after i s).host.reply.map Reply.status

/-- A plan's steps as (port, action, index, claim current, power). -/
def steps (s : State) (l : Level) : List (PortId × Action × Option Nat × Nat × Nat) :=
  (s.plan l).steps.map fun x => (x.port, x.action, x.index, x.current, x.power)

/-! ### Ill-formed commands: one for each check of WellFormed.lean -/

/-- A frame of another kind, a frame cut short, a frame that is delivered, an incomplete request, a correction out of its
range: each is refused by the check of its row. -/
theorem test_ill_formed_commands :
    [Instr.offers .p1 [0x15#8, 0x30#8, crc8 [0x15#8, 0x30#8]], .grant .p1 [0x13#8, 0x30#8],
      .deny .p1 [0x15#8, 0x30#8, crc8 [0x15#8, 0x30#8]], .ready .p1 [0x15#8, 0x30#8, 0x00#8],
      .rating .p1 [], .dialogueFrameReject .p1 [0x15#8, 0x30#8, crc8 [0x15#8, 0x30#8]],
      .dialogueFrameReject .p1 [0x15#8, 0x31#8, 0x00#8], .requestFrameComplete [0x02#8, 0x01#8],
      .resetCauseEnd .pin { Config.board with fuse := .all ⟨⟨.add, 501⟩, noCorrection⟩ },
      .powerOn (some { Config.board with fuse := .all ⟨noCorrection, ⟨.add, 201⟩⟩ }),
      .supplyLow (some { Config.board with fuse := .all ⟨⟨.subtract, 501⟩, noCorrection⟩ }),
      .pinReset (some { Config.board with fuse := .all ⟨⟨.subtract, 501⟩, noCorrection⟩ })].map
      Instr.wellFormed = List.replicate 12 false := by decide +kernel

/-- The same rows with operands that pass. -/
theorem test_well_formed_commands :
    [Instr.ready .p1 [0x15#8, 0x30#8, crc8 [0x15#8, 0x30#8]], .dialogueFrameReject .p1 [0x15#8, 0x30#8, 0x00#8],
      .requestFrameComplete [0x3D#8], .powerOn none, .resetCauseEnd .pin Config.board].map
      Instr.wellFormed = List.replicate 5 true := by decide +kernel

/-! ### Formats -/

/-- R119: over 0x01 and 0x02 the code is 0x1B, and over the three 0x00. -/
theorem test_crc : crc8 [0x01#8, 0x02#8] = 0x1B#8 ∧ crc8 [0x01#8, 0x02#8, 0x1B#8] = 0x00#8 := by decide +kernel

/-- Chapter 11: the QUERY of a discovery is sent as 0xC3, 0x86, 0x00, 0xC8. -/
theorem test_query_frame : queryFrame = [0xC3#8, 0x86#8, 0x00#8, 0xC8#8] := by decide +kernel

/-- R194: a CLAIM of index 4, 4500 mA, 20000 mV in generation 3 has destination 1, kind 2, two units of payload, and
100 111000010 (current in 10 mA steps is 450) 0 110010000 (voltage in 50 mV steps is 400) with nine zeros. -/
theorem test_claim_frame :
    (claimFrame 4 4500 20000 (some 3#4)).take 7 =
      [0xC3#8, 0x42#8, 0x32#8, 0x8E#8, 0x13#8, 0x20#8, 0x00#8] ∧
      crc8 ((claimFrame 4 4500 20000 (some 3#4)).drop 1) = 0#8 := by decide +kernel

/-- R194: OFFERS of generation 9 from a dock, with FIXED 20000 mV, 3250 mA (01 0110010000 0101000101 and ten zeros) and RANGE
5000 to 21000 mV, 60000 mW (10 0110100100 0001100100 0011110000). -/
theorem test_offers_read :
    readFrame [0x11#8, 0x95#8, 0x02#8, 0x00#8, 0x59#8, 0x05#8, 0x14#8, 0x00#8, 0x9A#8, 0x41#8, 0x90#8, 0xF0#8,
        crc8 [0x11#8, 0x95#8, 0x02#8, 0x00#8, 0x59#8, 0x05#8, 0x14#8, 0x00#8, 0x9A#8, 0x41#8, 0x90#8, 0xF0#8]] =
      some (.offers 9#4 .dock [.fixed 20000 3250, .range 5000 21000 60000]) := by decide +kernel

/-- R194: a GRANT of index 4 and 3250 mA, a DENY with code 0x07, read as UNAVAILABLE, and a RATING of 5000 mA and 20000 mV. -/
theorem test_other_frames_read :
    readFrame [0x13#8, 0x91#8, 0x8A#8, 0x28#8, crc8 [0x13#8, 0x91#8, 0x8A#8, 0x28#8]] =
      some (.grant 9#4 4 3250) ∧
    readFrame [0x14#8, 0x91#8, 0x07#8, 0x00#8, crc8 [0x14#8, 0x91#8, 0x07#8, 0x00#8]] =
      some (.deny 9#4 .unavailable) ∧
    readFrame [0x27#8, 0x01#8, 0x64#8, 0x28#8, crc8 [0x27#8, 0x01#8, 0x64#8, 0x28#8]] =
      some (.rating 5000 20000) := by decide +kernel

/-- R120: a GRANT sent by a cable marker (source 2), and one for another address, are discarded. -/
theorem test_frames_filtered :
    readFrame [0x23#8, 0x91#8, 0x8A#8, 0x28#8, crc8 [0x23#8, 0x91#8, 0x8A#8, 0x28#8]] = none ∧
    readFrame [0x53#8, 0x91#8, 0x8A#8, 0x28#8, crc8 [0x53#8, 0x91#8, 0x8A#8, 0x28#8]] = none := by decide +kernel

/-- R181: LEN, kind and two payload bytes that add up to 0x58 carry the check byte 0xA8; a byte changed by 1 fails. -/
theorem test_request_check :
    checkByte [0x02#8, 0x20#8, 0x30#8, 0x06#8] = 0xA8#8 ∧
    checkPasses [0x02#8, 0x20#8, 0x30#8, 0x06#8, 0xA8#8] = true ∧
    checkPasses [0x02#8, 0x20#8, 0x30#8, 0x07#8, 0xA8#8] = false := by decide +kernel

/-- R181: HALT's frame 00 0E F2 is GOOD, a kind that is none is UNKNOWN, a wrong length and a LEN above 60 are BAD_FRAME. -/
theorem test_request_verdicts :
    readRequest [0x00#8, 0x0E#8, 0xF2#8] = some (goodEntry .halt [], true) ∧
    readRequest [0x00#8, 0x19#8, 0xE7#8] = some (⟨.unknown, some 0x19#8, []⟩, true) ∧
    readRequest [0x01#8, 0x0E#8, 0x00#8, 0xF1#8] = some (⟨.badFrame, some 0x0E#8, []⟩, true) ∧
    readRequest [0x3D#8] = some (⟨.badFrame, none, []⟩, false) := by decide +kernel

/-- R185, R195: OK to HALT is A5 00 8E 00 72; the kind of a reply to a frame without one is 0x80. -/
theorem test_reply_frames :
    Reply.frame ⟨some 0x0E#8, .ok, []⟩ = [0xA5#8, 0x00#8, 0x8E#8, 0x00#8, 0x72#8] ∧
    Reply.frame ⟨none, .badFrame, []⟩ = [0xA5#8, 0x00#8, 0x80#8, 0x10#8, 0x70#8] := by decide +kernel

/-- R195: P2's DROOP is bit 10 of a flag vector, OVERRUN bit 29. -/
theorem test_flag_vector :
    ((FlagSet.all false).put (.port .p2 .droop) true).toVector = 1024 ∧
    ((FlagSet.all false).put (.whole .overrun) true).toVector = 536870912 := by decide +kernel

/-- The opcode table gives no row any bits, so no word spells a command. -/
theorem test_no_words : decodeTableWord 8 0x13 = none ∧ State.reset.withFetchWord 8 0x13 = State.reset := by
  decide +kernel

/-! ### The budget computation (2.12) -/

/-- P1's menu of the first worked case. -/
def menuP1 : List SentOffer := [.fixed 5000 3000, .fixed 9000 3000, .fixed 15000 3000, .fixed 20000 4500]

/-- P3's menu of the first worked case. -/
def menuP3 : List SentOffer := [.fixed 5000 3000, .fixed 20000 2250]

/-- The first worked case: P1 and P3 in STANDBY, D 90000 and L 100000. -/
def twoSupplies : State :=
  let s := { on with mode := { on.mode with demand := 90000, limit := 100000 } }
  withPort (withPort s .p1 (port .standby 6 menuP1 (some ⟨5000, 20000⟩))) .p3 (port .standby 2 menuP3)

/-- P1 feeding at index 4 with a derate of 70 % and some current. -/
def p1Feeds (current : Nat) (gen : Gen) : State :=
  feed .p1 .a 3150 4500 (withPort twoSupplies .p1 { port .feeding gen menuP1 (some ⟨5000, 20000⟩) with
    derate := 70, contract := some (terms 4 .fixed 6 20000 current) })

/-- 2.12, "Two supplies and a derate change", first plan: NEW P1 at 4500 mA and 90000 mW. -/
theorem test_plan_first : steps twoSupplies .gain = [(.p1, .new, some 4, 4500, 90000)] := by decide +kernel

/-- 2.12, the plan after the derate change: LOWER P1 to 3150 mA, then NEW P3 at 1350 mA. -/
theorem test_plan_derated :
    steps (p1Feeds 4500 6) .change = [(.p1, .lower, some 4, 3150, 63000), (.p3, .new, some 2, 1350, 27000)] := by
  decide +kernel

/-- 2.12, the figures of P1 at 70 %: Ider and U of each index. -/
theorem test_figures :
    ((p1Feeds 4500 6).unit .p1).table.entries.zipIdx.map
      (fun e => (e.1.figures e.2 5000 70).map fun f => (f.ider, f.usable)) =
      [some (630, 3150), some (2100, 10500), some (2100, 18900), some (2100, 31500), some (3150, 63000)] := by
  decide +kernel

/-- 2.12, "A clamped RANGE offer": CLAMPED at 20000 mV, Ider 2400, U 48000; an allocation of 33333 gives 1660 mA, 33200 mW. -/
theorem test_clamped_range :
    (judge 20000 (.range 5000 21000 60000)).eligibility = .clamped ∧
    (judge 20000 (.range 5000 21000 60000)).figures 1 3000 80 = some ⟨1, 20000, 2400, 48000⟩ ∧
    targetOf 33333 ⟨1, 20000, 2400, 48000⟩ = ⟨33333, 1660, 33200⟩ ∧
    targetOf 48000 ⟨1, 20000, 2400, 48000⟩ = ⟨48000, 2400, 48000⟩ := by decide +kernel

/-- The records of "A denial cap below the minimum claim". -/
def denialCase : State :=
  let s := { on with mode := { on.mode with demand := 60000, limit := 65000 } }
  let s := withPort s .p1 (port .standby 1 [.fixed 9000 2000] (some ⟨5000, 20000⟩))
  let s := withPort s .p2 { port .standby 1 [.fixed 15000 3000] with rank := 0 }
  feed .p4 .a 300 900 (withPort s .p4 { port .feeding 3 [.fixed 5000 3000, .fixed 20000 3000] with
    rank := 0, contract := some (terms 0 .basic 3 5000 300), denialCap := some ⟨1500, some 3⟩ })

/-- 2.12, that case: END P4, then NEW P2; with the battery absent, R37 moves the NEW ahead. -/
theorem test_plan_denial :
    steps denialCase .change = [(.p4, .fin, none, 0, 0), (.p2, .new, some 1, 3000, 45000)] ∧
    steps { denialCase with path := { denialCase.path with batteryPresent := some false } } .change =
      [(.p2, .new, some 1, 3000, 45000), (.p4, .fin, none, 0, 0)] := by decide +kernel

/-- The records of "A transfer with the battery absent", both channels bound. -/
def transferCase : State :=
  let s := { on with
    mode := { on.mode with demand := 45000, limit := 45000 }, path := { on.path with batteryPresent := some false } }
  let s := withPort s .p1 { port .feeding 1 [.fixed 9000 3000] with contract := some (terms 1 .fixed 1 9000 3000) }
  let s := withPort s .p2 { port .feeding 1 [.fixed 15000 3000] with
    contract := some (terms 1 .fixed 1 15000 1200) }
  let s := withPort s .p3 { port .standby 1 [.fixed 20000 3000] (some ⟨5000, 20000⟩) with rank := 0 }
  feed .p2 .b 1200 3000 (feed .p1 .a 3000 3000 s)

/-- 2.12, that case: END P1, then NEW P3; P2 is KEPT and the deferral mark is set. -/
theorem test_plan_transfer :
    steps transferCase .gain = [(.p1, .fin, none, 0, 0), (.p3, .new, some 1, 2250, 45000)] ∧
    ((transferCase.plan .gain).rows.get .p2).disposition = .kept ∧
    ((transferCase.plan .gain).rows.get .p2).power = 18000 ∧ (transferCase.plan .gain).deferral = true := by
  decide +kernel

/-- 2.12, "A reduce-only plan under a GAIN mask": NEW P3 is WITHHELD and the plan is empty. -/
theorem test_plan_reduce_only :
    let s := { p1Feeds 3150 6 with arb := { (p1Feeds 3150 6).arb with gainMasked := true } }
    steps s .shed = [] ∧ ((s.plan .shed).rows.get .p3).disposition = .withheld := by decide +kernel

/-- 2.12, "A RESTATE after a valid offer change": the same terms in generation 7 are restated. -/
theorem test_plan_restate :
    steps (withPort (p1Feeds 3150 7) .p3 (PortUnit.reset true)) .change = [(.p1, .restate, some 4, 3150, 63000)] := by
  decide +kernel

/-- R47's example: (CHANGE, GLOBAL), (CHANGE, P4), (CHANGE, P2), with GAIN masked and ranks P2 = 1, P4 = 0. -/
theorem test_take_order :
    let pending := ((((EntrySet.empty.put ⟨.change, .port .p4⟩ true).put ⟨.gain, .port .p1⟩ true).put
      ⟨.change, .whole⟩ true).put ⟨.change, .port .p2⟩ true)
    let s := withPort on .p4 { PortUnit.reset true with rank := 0 }
    State.takeable { s with arb := { s.arb with pending := pending, gainMasked := true } } =
      [⟨.change, .whole⟩, ⟨.change, .port .p4⟩, ⟨.change, .port .p2⟩] := by decide +kernel

/-! ### Power and protection -/

/-- The two feeds of R140's example. -/
def twoFeeds : State :=
  feed .p3 .b 1350 2250 (withPort (p1Feeds 3150 6) .p3 { port .feeding 2 menuP3 with
    contract := some (terms 2 .fixed 2 20000 1350) })

/-- R140's example: L lowered to 60000 mW scales 3150 and 1350 mA to 2100 and 900 mA, 60000 mW in all. -/
theorem test_scaling :
    let s := after (.setLimit 60000) (asked twoFeeds .setLimit (be32 60000))
    s.path.a.draw = 2100 ∧ s.path.b.draw = 900 ∧ s.chanPower .a + s.chanPower .b = 60000 ∧
      s.arb.pending.has ⟨.shed, .whole⟩ = true := by decide +kernel

/-- R141's example: a derate of 70 % cuts a draw limit of 4500 mA to 3150 mA, and P1's committed power to 63000 mW. -/
theorem test_derate_cut :
    let s := (p1Feeds 4500 6).modUnit .p1 fun u => { u with derate := 100 }
    let s := s.modChan .a fun x => { x with draw := 4500 }
    let s := after (.setPort 1 1 70 0) (asked s .setPort [1, 1, 70, 0])
    s.path.a.draw = 3150 ∧ s.chanPower .a = 63000 ∧ s.arb.pending.has ⟨.change, .port .p1⟩ = true := by decide +kernel

/-- Chapter 8, "The integrator": seventeen samples of 3600 mA over an allowance of 3375 mA give 3825, the eighteenth trips. -/
theorem test_integrator :
    allowance 3000 = 3375 ∧ integrate 3600 3375 3600 = 3825 ∧ integrate 3825 3375 3600 = 4050 ∧
      integrate 3825 3375 3000 = 3732 ∧ integrate 12 3375 3000 = 0 := by decide +kernel

/-- "A draw-limit cut and the accumulator": 788, 1226, 1161 against an allowance of 2362 mA. -/
theorem test_integrator_after_cut :
    allowance 2100 = 2362 ∧ integrate 0 2362 3150 = 788 ∧ integrate 788 2362 2800 = 1226 ∧
      integrate 1226 2362 2100 = 1161 := by decide +kernel

/-- R158's example at the wrap: W 4,294,967,295 and F 3,550,000 with 60,000 more leave W 0 and F 10,000. -/
theorem test_energy_wrap :
    (Meter.mk 0 0 none 3550000 4294967295).addEnergy 20000 3000 = ⟨0, 0, none, 10000, 0⟩ := by decide +kernel

/-- R130: the windows of 20000, 9000 and 5000 mV, both bounds included. -/
theorem test_windows :
    [inWindow 20000 19000, inWindow 20000 18999, inWindow 20000 21000, inWindow 20000 21001, inWindow 9000 8550,
      inWindow 9000 9451, inWindow 5000 4750, inWindow 5000 5250] =
      [true, false, true, false, true, false, true, true] := by decide +kernel

/-- P3 of "A persistent droop", at some run count. -/
def drooping (run : Nat) : State :=
  let s := withPort on .p3 { port .feeding 2 menuP3 with contract := some (terms 2 .fixed 2 20000 2250) }
  (feed .p3 .a 2250 2250 s).modMeter .p3 fun m => { m with droopRun := run }

/-- Chapter 8, "A persistent droop": the second low sample captures 17900 mV and 2240 mA and sets DROOP. -/
theorem test_droop :
    let s := after (.sample .p3 17900 2240) (drooping 1)
    (s.meter .p3).capture = some ⟨0, 17900, 2240, 20000, .droop, true⟩ ∧
      s.host.flags.get (.port .p3 .droop) = true ∧ s.host.attentionLine = true := by decide +kernel

/-- The same: the tenth gives a droop cap of 33750 mW, and the plan is LOWER P3 to 1680 mA and 33600 mW. -/
theorem test_persistent_droop :
    let s := after (.sample .p3 17900 2240) (drooping 9)
    (s.unit .p3).droopCap = some 33750 ∧ s.arb.pending.has ⟨.change, .port .p3⟩ = true ∧
      steps { s with mode := { s.mode with demand := 45000, limit := 45000 } } .change =
        [(.p3, .lower, some 2, 1680, 33600)] := by decide +kernel

/-- R154: a voltage at the bound, 18000 mV for 20000 mV, is not low. -/
theorem test_droop_bound : ((after (.sample .p3 18000 2240) (drooping 9)).meter .p3).droopRun = 0 := by decide +kernel

/-- R151: 6200 mA trips at once; the port is FAULTED with one trip and its path OPEN. -/
theorem test_hard_trip :
    let s := after (.sample .p3 19900 6200) (drooping 0)
    (s.unit .p3).state = .faulted ∧ (s.unit .p3).trips = 1 ∧ (s.unit .p3).coolDownStart = some 0 ∧
      (s.portPath .p3).state = .openPath ∧ s.arb.pending.has ⟨.shed, .port .p3⟩ = true := by decide +kernel

/-- R86, R85: at the third trip no cool-down runs. -/
theorem test_latched_trip :
    ((after (.sample .p3 19900 6200) ((drooping 0).modUnit .p3 fun u => { u with trips := 2 })).unit
      .p3).coolDownStart = none := by decide +kernel

/-- R148: corrections of -100 mV and +50 mA; the corrected readings stop at 0, 30000 mV and 8000 mA. -/
theorem test_corrections :
    corrected ⟨.subtract, 100⟩ 20000 30000 = 19900 ∧ corrected ⟨.subtract, 100⟩ 50 30000 = 0 ∧
      corrected ⟨.add, 50⟩ 7990 8000 = 8000 := by decide +kernel

/-- R157: a dip captures on a CLOSED port. -/
theorem test_dip :
    let s := after .railLowAssert (drooping 0)
    ((s.meter .p3).capture.map Capture.cause) = some .dip ∧ s.host.flags.dip = true ∧
      (s.meter .p1).capture = none := by decide +kernel

/-! ### From attach to a first contract (chapter 5's sequence, in its order of events) -/

/-- The part on a 65,000 mW board, ten ms after a POWER_ON reset, P3's presence line asserted at once. -/
def attached : State :=
  after (.presenceAssert .p3) (after .startingEnd (after (.powerOn (some
    { Config.board with limitClass := .mw65000 })) State.reset))

/-- P3 in DISCOVER, its QUERY sent and answered with 5000 mA and 20000 mV. -/
def rated : State :=
  after (.rating .p3 [0x27#8, 0x01#8, 0x64#8, 0x28#8, crc8 [0x27#8, 0x01#8, 0x64#8, 0x28#8]])
    (after (.frameSent .p3) (after (.transmitStart .p3) (after (.debounceEnd .p3) attached)))

/-- The dock's OFFERS of generation 9: FIXED 5000, 9000 and 15000 mV at 3000 mA and 20000 mV at 3250 mA. -/
def dockFrame : List Byte :=
  let body := [0x11#8, 0x99#8, 0x02#8, 0x00#8] ++ be32 0x4644B000 ++ be32 0x4B44B000 ++ be32 0x52C4B000 ++
    be32 0x59051400
  body ++ [crc8 body]

/-- P3 in CLAIMING for index 4. -/
def claimed : State := after .take (after (.offers .p3 dockFrame) rated)

/-- P3 in SWITCHING, the GRANT taken. -/
def granted : State :=
  after (.grant .p3 [0x13#8, 0x91#8, 0x8A#8, 0x28#8, crc8 [0x13#8, 0x91#8, 0x8A#8, 0x28#8]]) claimed

/-- P3 in PRECHARGE, READY taken at 19900 mV. -/
def precharging : State :=
  after (.ready .p3 [0x15#8, 0x90#8, crc8 [0x15#8, 0x90#8]]) (after (.sample .p3 19900 0) granted)

/-- R72: the debounce of 50 ms begins at the assertion, and DISCOVER at its end. -/
theorem test_debounce :
    attached.clock.base = 10 ∧ (attached.unit .p3).state = .debounce ∧ rated.clock = ⟨60, 60400⟩ ∧
      (rated.unit .p3).discoveryStart = some 60 ∧ (rated.unit .p3).cable = some ⟨5000, 20000⟩ := by decide +kernel

/-- R97, R75: the OFFERS ends discovery; R99: the claim is for index 4, 3250 mA at 20000 mV. -/
theorem test_claim :
    (claimed.unit .p3).state = .claiming ∧ claimed.arb.pending.count = 0 ∧
      (claimed.unit .p3).line.held = some (claimFrame 4 3250 20000 (some 9)) := by decide +kernel

/-- R10, R101: the GRANT writes the contract and begins the READY wait. -/
theorem test_grant :
    (granted.unit .p3).state = .switching ∧
      (granted.unit .p3).contract = some { terms 4 .fixed 9 20000 3250 with since := granted.clock.base } ∧
      (granted.unit .p3).exchange = some (.ready (some 9) granted.clock.base) := by decide +kernel

/-- R131: P3 is bound to channel A, and 20 ms later its path is CLOSED with 3250 mA, the rebalance DONE. -/
theorem test_path_closes :
    (precharging.portPath .p3).state = .precharge ∧ precharging.path.a.bound = some .p3 ∧
      let s := after (.prechargeEnd .p3) precharging
      (s.unit .p3).state = .feeding ∧ s.path.a.draw = 3250 ∧ s.path.statusOutput = true ∧
        s.arb.lastOutcome = some ⟨⟨.gain, .port .p3⟩, .done, 1, s.clock.base⟩ ∧
        s.host.flags.get (.port .p3 .contract) = true ∧ s.clock.base = precharging.clock.base + 20 := by
  decide +kernel

/-! ### The hypotheses of the statements are met

Each theorem below names the statement whose hypotheses it meets, and gives a state and operands for each of its
clauses, at a bound where a clause has one. -/

/-- P1's port record in a state, with an exchange. -/
def exchanging (x : PortState) (e : Option Exchange) : PortUnit :=
  { port x 3 [.fixed 9000 3000, .fixed 20000 3000] with exchange := e }

/-- `on` with that record for P1. -/
def withExchange (x : PortState) (e : Option Exchange) : State := withPort on .p1 (exchanging x e)

/-- A claim for index 2, at 3000 mA and 20000 mV, in generation 3. -/
def aClaim (purpose : Purpose) (attempt : Nat) : Option Exchange :=
  some (.claim purpose 2 3000 20000 (some 3) attempt 0)

/-- P1 feeding at index 1, 9000 mV and 2000 mA, with an exchange and a change to 3000 mA at 20000 mV. -/
def changing (x : PortState) (e : Option Exchange) : State :=
  feed .p1 .a 2000 3000 (withPort on .p1 { exchanging x e with
    contract := some { terms 1 .fixed 3 9000 2000 with change := some ⟨2, some 3, 3000, 20000⟩ } })

/-- A rebalance of one step on P1, a NEW, in flight. -/
def oneStep : InService :=
  { taken := ⟨.gain, .port .p1⟩
    plan := ⟨[⟨.p1, .new, some 2, some 3, some 20000, 3000, 60000⟩], .all ⟨.none, none, none, 0, 0, 0, .noStep⟩, false,
      false⟩
    results := [.inFlight], next := 0, inFlight := true, reduceOnly := false, covered := .empty }

/-- The part with that rebalance in service. -/
def inFlight (s : State) : State := s.modArb fun a => { a with inService := some oneStep }

/-- The part DORMANT, waking on everything. -/
def asleep (s : State) : State :=
  { s with mode := { s.mode with power := .dormant, wakeSet := some ⟨true, true, true, true, true, true⟩ } }

/-- P1's line record changed. -/
def withLine (s : State) (f : LineInterface → LineInterface) : State := s.modLine .p1 f

/-- P1 a sole feed: the battery absent. -/
def sole (s : State) : State := { s with path := { s.path with batteryPresent := some false } }

/-- READY of generation 3, and the other frames of P1. -/
def readyFrame : List Byte := [0x15#8, 0x30#8, crc8 [0x15#8, 0x30#8]]
/-- GRANT of index 2 and 3000 mA (010 0100101100 000) in generation 3. -/
def grantFrame : List Byte := [0x13#8, 0x31#8, 0x49#8, 0x60#8, crc8 [0x13#8, 0x31#8, 0x49#8, 0x60#8]]
/-- DENY of generation 3, reason OVER. -/
def denyFrame : List Byte := [0x14#8, 0x31#8, 0x02#8, 0x00#8, crc8 [0x14#8, 0x31#8, 0x02#8, 0x00#8]]
/-- RATING of 5000 mA and 20000 mV. -/
def ratingFrame : List Byte := [0x27#8, 0x01#8, 0x64#8, 0x28#8, crc8 [0x27#8, 0x01#8, 0x64#8, 0x28#8]]
/-- OFFERS of generation 4 from an adapter, with no entry behind entry 0. -/
def bareFrame : List Byte := [0x11#8, 0x41#8, 0x01#8, 0x00#8, crc8 [0x11#8, 0x41#8, 0x01#8, 0x00#8]]

theorem witness_IdleStepPassesOneMillisecond :
    on.pending = [] ∧ on.held = false ∧ (after (.pinReset none) on).held = true ∧
      (after (.pinReset none) on).pending = [] := by decide +kernel

theorem witness_HardResetsLeaveTheResetValues :
    on.held = false ∧ Config.board.fuseCheckPasses = true ∧
      exec (.powerOn (some Config.board)) on = .next (after (.powerOn (some Config.board)) on) :=
  ⟨rfl, rfl, rfl⟩

theorem witness_ResetHoldsUntilTheLastCauseEnds :
    let one := after (.pinReset none) on
    let two := after (.supplyLow none) one
    one.mode.hold.has .pin = true ∧ one.mode.hold.supply.isSome = false ∧
      two.mode.hold.has .pin = true ∧ two.mode.hold.supply.isSome = true ∧ two.mode.hold.has .supplyLow = true := by
  decide +kernel

/-- STARTING on a board of two ports: P2 is up to the count and P3 above it. -/
def twoPorts : State := after (.powerOn (some { Config.board with portCount := .two })) on

theorem twoPorts_inStarting : twoPorts.InStarting :=
  ⟨rfl, rfl, rfl, rfl, by decide +kernel, rfl, rfl, fun p => by cases p <;> rfl, rfl⟩

theorem witness_StartingEnds :
    twoPorts.InStarting ∧ twoPorts.held = false ∧ PortId.number .p2 ≤ twoPorts.mode.straps.portCount ∧
      twoPorts.mode.straps.portCount < PortId.number .p3 :=
  ⟨twoPorts_inStarting, by decide +kernel⟩

theorem witness_StartingKeepsThePartStill : twoPorts.InStarting ∧ ¬StartsOrResets (.sample .p1 5000 900) := by
  refine ⟨twoPorts_inStarting, ?_⟩
  simp [StartsOrResets]

theorem witness_LinesFollowEveryCommand : exec .take on = .next (after .take on) := rfl

theorem witness_PolicyLawIsInvariant : on.PolicyLawful ∧ step on = .next on.tick := by
  refine ⟨⟨by decide +kernel, by decide +kernel, by decide +kernel, by decide +kernel, ?_, ?_, ?_, ?_⟩, rfl⟩ <;>
    simp [on, State.reset, ModeControl.starting, State.held]

theorem witness_MetersLawIsInvariant : on.MetersLawful ∧ step on = .next on.tick := by
  refine ⟨fun p => ?_, rfl⟩
  cases p <;> exact ⟨by decide, by decide, by decide, by decide⟩

theorem witness_PortsLawIsInvariant : on.PortsLawful ∧ step on = .next on.tick := by
  refine ⟨fun p => ?_, rfl⟩
  cases p <;> exact ⟨by decide, by decide, by decide, by decide, by decide, by decide⟩

theorem witness_QueueLawIsInvariant :
    (asked on .getPort [1#8]).QueueLawful ∧ step (asked on .getPort [1#8]) = .next (asked on .getPort [1#8]).tick := by
  refine ⟨⟨by decide +kernel, fun e he r hr => ?_⟩, rfl⟩
  have : e = goodEntry .getPort [1#8] := by simpa [asked, State.modHost] using he
  subst this
  cases hr
  exact ⟨rfl, rfl⟩

/-- P1 claiming a change, every other port EMPTY. -/
theorem changing_grid : (changing .claiming (aClaim .raise 1)).GridLawful := by
  have entries : ((changing .claiming (aClaim .raise 1)).unit .p1).table.entries =
      [basicEntry, judge 20000 (.fixed 9000 3000), judge 20000 (.fixed 20000 3000)] := rfl
  refine ⟨fun p => ?_, fun p => ?_, rfl, rfl, fun r hr => by cases hr⟩
  · cases p
    · refine ⟨fun e he => ?_, fun c hc => (by cases hc), fun k hk => ?_, ?_⟩
      · rw [entries] at he
        simp only [List.mem_cons, List.not_mem_nil, or_false] at he
        rcases he with rfl | rfl | rfl <;> refine ⟨?_, ?_⟩ <;> trivial
      · cases hk
        exact ⟨by simp only [OnGrid]; decide +kernel, fun c hc => by cases hc; simp only [OnGrid]; decide +kernel⟩
      · change OnGrid (some 20000) (some 3000); simp only [OnGrid]; decide +kernel
    all_goals exact ⟨fun e he => (by cases he), fun c hc => (by cases hc), fun k hk => (by cases hk), trivial⟩
  · cases p <;> simp only [OnGrid] <;> decide +kernel

theorem twoFeeds_paths : twoFeeds.PathsLawful := by
  refine ⟨by decide +kernel, by decide +kernel, by decide +kernel, fun p => ?_⟩
  cases p <;> exact ⟨by decide +kernel, by decide +kernel, by decide +kernel, trivial, by decide +kernel⟩

theorem witness_GridLawIsInvariant_and_PathsLawIsInvariant :
    (changing .claiming (aClaim .raise 1)).GridLawful ∧
      step (changing .claiming (aClaim .raise 1)) = .next (changing .claiming (aClaim .raise 1)).tick ∧
      twoFeeds.PathsLawful ∧ step twoFeeds = .next twoFeeds.tick :=
  ⟨changing_grid, rfl, twoFeeds_paths, rfl⟩

/-- P1's NEW in flight, its claim outstanding. -/
theorem witness_PathsLaw_steps :
    let s := inFlight (withExchange .claiming (aClaim .new 1))
    s.PathsLawful ∧ s.StepsLawful ∧ (s.unit .p1).awaitsStep = true ∧ step s = .next s.tick := by
  refine ⟨⟨by decide +kernel, by decide +kernel, by decide +kernel, fun p => ?_⟩, fun p => ?_, by decide +kernel, rfl⟩
  · cases p <;> exact ⟨by decide +kernel, by decide +kernel, by decide +kernel, (by trivial),
      by decide +kernel⟩
  · cases p <;> decide +kernel

/-- The last CLOSED path, the battery absent, opens at a trip. -/
theorem witness_PathsLaw_soleFeed :
    let s := sole twoFeeds |>.modPortPath .p1 fun _ => ⟨.openPath, none, none, none⟩
    let s := (s.modChan .a fun _ => ⟨none, 0⟩).modUnit .p1 fun u => { u with contract := none, state := .standby }
    let t := after (.sample .p3 20000 6000) s
    s.PathsLawful ∧ s.path.batteryPresent = some false ∧ (s.portPath .p3).state = .closed ∧
      (∀ p, (t.portPath p).state ≠ .closed) ∧ exec (.sample .p3 20000 6000) s = .next t := by
  refine ⟨⟨by decide +kernel, by decide +kernel, by decide +kernel, fun p => ?_⟩, by decide +kernel, by decide +kernel,
    fun p => ?_, rfl⟩
  · cases p <;> exact ⟨by decide +kernel, by decide +kernel, by decide +kernel, trivial, by decide +kernel⟩
  · cases p <;> decide +kernel

theorem witness_EnergyMovesOnlyAtItsEvents_and_PortSettings :
    exec .take on = .next (after .take on) ∧ (∀ v c, Instr.take ≠ .sample .p1 v c) ∧ (∀ b, Instr.take ≠ .clearEnergy b) ∧
      (∀ a b c d, Instr.take ≠ .setPort a b c d) ∧ (∀ k b, Instr.take ≠ .resetCauseEnd k b) ∧
      ∀ r, Instr.take ≠ .powerOn r ∧ Instr.take ≠ .supplyLow r ∧ Instr.take ≠ .pinReset r := by
  refine ⟨rfl, ?_, ?_, ?_, ?_, ?_⟩ <;> simp

/-- P3 with a locked capture. -/
def locked : State := after (.sample .p3 17900 2240) (drooping 1)

/-- A CLEAR_EVENTS that lists every flag but P3's DROOP, bit 16. -/
theorem witness_LockedCaptureIsKept :
    (locked.meter .p3).capture = some ⟨0, 17900, 2240, 20000, .droop, true⟩ ∧
      exec (.clearEvents 0x3FFEFFFF) locked = .next (after (.clearEvents 0x3FFEFFFF) locked) ∧
      ((FlagSet.ofVector 0x3FFEFFFF).port.get .p3).droop = false :=
  ⟨by decide +kernel, rfl, by decide +kernel⟩

theorem witness_ReadingRequestsAnswerAndChangeNothing :
    (asked on .getStatus []).turn .getStatus [] [] ∧ (asked on .getPlan []).turn .getPlan [] [] ∧
      (asked on .getEvents []).turn .getEvents [] [] ∧ (asked on .getPort [4#8]).turn .getPort [4#8] [] ∧
      (asked on .getOffers [4#8]).turn .getOffers [4#8] [] ∧ (asked on .getCapture [4#8]).turn .getCapture [4#8] [] ∧
      (4#8 : Byte).toNat = PortId.number .p4 ∧ PortId.number .p4 ≤ (asked on .getPort [4#8]).mode.straps.portCount :=
  ⟨⟨rfl, rfl, rfl⟩, ⟨rfl, rfl, rfl⟩, ⟨rfl, rfl, rfl⟩, ⟨rfl, rfl, rfl⟩, ⟨rfl, rfl, rfl⟩, ⟨rfl, rfl, rfl⟩, rfl,
    by decide +kernel⟩

/-- `on` is in every range, with a rebalance in service and a bit of each payload in use. -/
theorem witness_PayloadsHaveTheirLengths :
    on.mode.straps.portCount < 256 ∧ on.QueueLawful ∧ on.PolicyLawful ∧ on.PortsLawful ∧ on.MetersLawful ∧
      ((changing .feeding none).unit .p1).table.entries.length ≤ 8 ∧ oneStep.plan.steps.length ≤ 4 ∧
      oneStep.results.length = oneStep.plan.steps.length ∧ oneStep.next ≤ 4 ∧
      (inFlight on).arb.inService = some oneStep ∧ Flag.all[29]? = some (.whole .overrun) :=
  ⟨by decide +kernel, ⟨by decide, fun e he => by cases he⟩, witness_PolicyLawIsInvariant.1, witness_PortsLawIsInvariant.1,
    witness_MetersLawIsInvariant.1, by decide +kernel⟩

/-- Port bytes 0 and 5 name no port; byte 3 names one above a strap port count of 2.  AUTONOMOUS authority. -/
theorem witness_RefusedRequestsChangeNothing :
    (∀ b ∈ [0#8, 5#8], ∀ p : PortId, b.toNat = p.number → on.mode.straps.portCount < p.number) ∧
      (∀ p : PortId, (3#8 : Byte).toNat = p.number → twoPorts.mode.straps.portCount < p.number) ∧
      (asked on .portDisable [5#8]).turn .portDisable [5#8] [] ∧
      (asked { on with mode := { on.mode with authority := .autonomous } } .halt []).turn .halt [] [] ∧
      Instr.request .halt = some (.halt, []) := by
  refine ⟨?_, ?_, ⟨rfl, rfl, rfl⟩, ⟨rfl, rfl, rfl⟩, rfl⟩
  · intro b hb p hp
    simp at hb
    rcases hb with rfl | rfl <;> cases p <;> simp [PortId.number] at hp
  · intro p hp
    cases p <;> first | decide +kernel | simp [PortId.number] at hp

/-- SET_PORT of port 5 in DIRECTED authority. -/
theorem witness_RefusedRequests_setPort :
    on.mode.authority = .directed ∧ (∀ p : PortId, (5#8 : Byte).toNat = p.number → on.mode.straps.portCount < p.number) ∧
      (asked on .setPort [5#8, 3#8, 25#8, 0#8]).turn .setPort [5#8, 3#8, 25#8, 0#8] [] := by
  refine ⟨rfl, fun p hp => ?_, ⟨rfl, rfl, rfl⟩⟩
  cases p <;> simp [PortId.number] at hp

theorem witness_RequestsWaitForTheirTurn :
    Instr.request .halt = some (.halt, []) ∧ (asleep on).mode.power ≠ .active ∧
      (asked on .resume []).host.queue = [goodEntry .resume []] ∧ goodEntry .resume [] ≠ goodEntry .halt [] ∧
      on.host.queue = [] ∧ on.host.reception = .hunting ∧ on.host.reply = none ∧ on.mode.power = .active ∧
      (after .hostStartByte on).host.reception ≠ .hunting ∧ (after .hostStartByte on).host.queue = [] := by decide +kernel

theorem witness_LinkFormatsReadBack :
    Instr.request (.takeControl 1 2) = some (.takeControl, be32 1 ++ be32 2) ∧
      (Reply.mk (some 1#8) .ok (List.replicate 255 0#8)).payload.length ≤ 255 := by decide +kernel

/-- The widest fields of a dialogue frame and of a menu, a GRANT and a CLAIM. -/
theorem witness_LinkFormatsReadBack_dialogue :
    Sendable (.fixed 51150 10230) ∧ Sendable (.range 0 51150 255750) ∧
      (List.replicate 30 0#8).length % 2 = 0 ∧ (List.replicate 30 0#8).length ≤ 30 ∧
      (List.replicate 7 (SentOffer.fixed 51150 10230)).length ≤ 7 ∧ 10230 / 10 < 1024 ∧ 51150 / 50 < 1024 := by
  simp [Sendable]

/-- A waiting rebalance of level GAIN with a SHED entry pending, halted. -/
def halted : State :=
  let s := on.modArb fun a => { a with
    halted := true, inService := some { oneStep with inFlight := false, results := [.waiting] } }
  asked (s.post .shed .whole) .resume []

theorem witness_MasksAndHaltAreWritten :
    (asked on .setMask [3#8]).turn .setMask [3#8] [] ∧ (asked on .halt []).turn .halt [] [] ∧
      on.mode.authority = .directed ∧ (asked on .resume []).turn .resume [] [] ∧ on.arb.halted = false ∧
      halted.turn .resume [] [] ∧ halted.arb.halted = true ∧
      (∀ r, halted.arb.inService = some r → r.inFlight = false ∧ r.next < r.plan.steps.length ∧
        ∃ e, halted.Preempts r e) ∧
      (∀ r, (inFlight on).arb.inService = some r → r.inFlight = true) := by
  refine ⟨⟨rfl, rfl, rfl⟩, ⟨rfl, rfl, rfl⟩, rfl, ⟨rfl, rfl, rfl⟩, rfl, ⟨rfl, rfl, rfl⟩, rfl, ?_, ?_⟩
  · intro r hr; cases hr; exact ⟨rfl, by decide +kernel, State.preempted_iff.mp (by decide +kernel)⟩
  · intro r hr; cases hr; rfl

/-- P1 feeding at index 1, 9000 mV and some current, with the contract's generation. -/
def fedP1 (current : Nat) (gen : Gen) : State :=
  feed .p1 .a current 3000 (withPort on .p1 { exchanging .feeding none with
    contract := some (terms 1 .fixed gen 9000 current) })

/-- P1 BASIC_ONLY, feeding on Basic terms at some current. -/
def basicFeed (current : Nat) : State :=
  (feed .p1 .a current 900 (withPort on .p1 { exchanging .feeding none with
    contract := some (terms 0 .basic 3 5000 current) })).modUnit .p1 fun u => { u with mode := .basicOnly }

/-- A waiting rebalance of one step, with no entry pending. -/
def waitingFor (x : PlanStep) : InService :=
  { oneStep with plan := { oneStep.plan with steps := [x] }, results := [.waiting], inFlight := false }

/-- The part with that rebalance in service. -/
def poised (x : PlanStep) (s : State) : State := s.modArb fun a => { a with inService := some (waitingFor x) }

/-- A RAISE of P1 to index 2, 3000 mA at 20000 mV. -/
def raiseStep : PlanStep := ⟨.p1, .raise, some 2, some 3, some 20000, 3000, 60000⟩

/-- A RESUME with a waiting step that no entry preempts. -/
def resumed : State := asked ((poised raiseStep (fedP1 2000 3)).modArb fun a => { a with halted := true }) .resume []

theorem witness_MasksAndHalt_goesOn :
    resumed.turn .resume [] [] ∧ resumed.arb.halted = true ∧ resumed.arb.inService = some (waitingFor raiseStep) ∧
      (waitingFor raiseStep).inFlight = false ∧ (∀ e, ¬resumed.Preempts (waitingFor raiseStep) e) ∧
      (waitingFor raiseStep).step = some raiseStep ∧ resumed.revalidates raiseStep = true ∧
      (resumed.unit .p1).speaks = true :=
  ⟨⟨rfl, rfl, rfl⟩, by decide +kernel, by decide +kernel, rfl, State.not_preempts (by decide +kernel), rfl, by decide +kernel⟩

/-- R63: the RAISE is claimed as the RESUME is answered. -/
theorem test_resume_goes_on :
    let s := after .resume resumed
    (s.unit .p1).exchange = some (.claim .raise 2 3000 20000 (some 3) 1 0) ∧ s.stepOn .p1 = true ∧
      s.host.reply.map Reply.status = some .ok := by decide +kernel

/-- SET_DEMAND at 200,000 and one above; SET_LIMIT at the limit, one below, and above a limit that was 45,000. -/
theorem witness_DemandAndLimitAreWritten :
    (asked on .setDemand (be32 (200000#32 : Word32).toNat)).turn .setDemand (be32 (200000#32 : Word32).toNat) [] ∧
      (asked on .setDemand (be32 (200001#32 : Word32).toNat)).turn .setDemand (be32 (200001#32 : Word32).toNat) [] ∧
      (asked on .setLimit (be32 (140000#32 : Word32).toNat)).turn .setLimit (be32 (140000#32 : Word32).toNat) [] ∧
      140000 = min on.classPower (max 5000 (140000#32 : Word32).toNat) ∧ 140000 = on.mode.limit ∧
      139999 = min on.classPower (max 5000 (139999#32 : Word32).toNat) ∧ 139999 < on.mode.limit ∧
      transferCase.mode.limit < min transferCase.classPower (max 5000 (45001#32 : Word32).toNat) :=
  ⟨⟨rfl, rfl, rfl⟩, ⟨rfl, rfl, rfl⟩, ⟨rfl, rfl, rfl⟩, by decide +kernel, by decide +kernel, by decide +kernel,
    by decide +kernel, by decide +kernel⟩

/-- The same state under an L of 10000 mW, below its committed sum of 18000 mW. -/
def overLimit : State :=
  { changing .claiming (aClaim .raise 1) with mode := { on.mode with limit := 10000 } }

theorem witness_DrawLimitsStayWithinL :
    overLimit.GridLawful ∧ overLimit.mode.limit < overLimit.chanPower .a + overLimit.chanPower .b ∧
      (changing .claiming (aClaim .raise 1)).GridLawful ∧
      twoFeeds.chanPower .a + twoFeeds.chanPower .b ≤ twoFeeds.mode.limit :=
  ⟨changing_grid, by decide +kernel, changing_grid, by decide +kernel⟩

/-- P1 draws 2000 mA, as its contract claims, and its Ider is 3000 mA. -/
theorem witness_DrawLimitsStayWithinL_power :
    let s := changing .claiming (aClaim .raise 1)
    s.PolicyLawful ∧ s.PortsLawful ∧ s.PathsLawful ∧ s.GridLawful ∧ s.PowerLawful ∧ step s = .next s.tick := by
  refine ⟨witness_PolicyLawIsInvariant.1, fun p => by cases p <;> exact ⟨by decide, by decide, by decide, by decide,
    by decide, by decide⟩, ⟨by decide +kernel, by decide +kernel, by decide +kernel, fun p => ?_⟩, changing_grid,
    ⟨by decide +kernel, fun c => ?_, fun p => ?_⟩, rfl⟩
  · cases p <;> exact ⟨by decide +kernel, by decide +kernel, by decide +kernel, (by trivial),
      by decide +kernel⟩
  · cases c <;> decide +kernel
  · cases p
    · refine ⟨trivial, by decide +kernel, by decide +kernel, fun c h => ?_⟩
      cases c
      · exact ⟨by decide +kernel, fun k hk => by cases hk; decide +kernel, by decide +kernel⟩
      · exact absurd h (by decide +kernel)
    all_goals exact ⟨trivial, by decide +kernel, by decide +kernel, fun c h => absurd h (by cases c <;> decide +kernel)⟩

/-- The raise reaches a target of 3000 mA on channel A; a channel whose port is CLAIMING is left. -/
theorem witness_DrawLimitsStayWithinL_raise :
    ((fedP1 2000 3).chan .a).bound = some .p1 ∧ ((fedP1 2000 3).unit .p1).contract = some (terms 1 .fixed 3 9000 2000) ∧
      ((fedP1 2000 3).unit .p1).state = .feeding ∧
      (((fedP1 2000 3).modChan .a fun x => { x with draw := 900 }).raise.chan .a).draw = 2000 ∧
      ((changing .claiming (aClaim .raise 1)).unit .p1).state = .claiming := by decide +kernel

/-- R170 with R140's example: TAKE_CONTROL with L 60000 mW scales 3150 and 1350 mA to 2100 and 900 mA; with L 140000 mW it
raises nothing above the contracts. -/
theorem test_take_control_moves_limit :
    let s (l : Nat) := after (.takeControl 90000 (BitVec.ofNat 32 l))
      (asked twoFeeds .takeControl (be32 90000 ++ be32 l))
    (s 60000).path.a.draw = 2100 ∧ (s 60000).path.b.draw = 900 ∧ (s 60000).mode.limit = 60000 ∧
      (s 60000).arb.pending.has ⟨.shed, .whole⟩ = true ∧ (s 140000).path.a.draw = 3150 ∧
      (s 140000).arb.pending.has ⟨.shed, .whole⟩ = false := by decide +kernel

theorem witness_TakeControl_moves :
    (asked twoFeeds .takeControl (be32 90000 ++ be32 60000)).turn .takeControl
        (be32 (90000#32 : Word32).toNat ++ be32 (60000#32 : Word32).toNat) [] ∧
      60000 < twoFeeds.mode.limit ∧ 60000 < twoFeeds.contractSum ∧
      60000 < twoFeeds.chanPower .a + twoFeeds.chanPower .b :=
  ⟨⟨rfl, rfl, rfl⟩, by decide +kernel⟩

theorem witness_TakeControl_Release_Silence :
    (asked on .takeControl (be32 (1#32 : Word32).toNat ++ be32 (2#32 : Word32).toNat)).turn .takeControl
        (be32 (1#32 : Word32).toNat ++ be32 (2#32 : Word32).toNat) [] ∧
      (asked on .releaseControl []).turn .releaseControl [] [] ∧ on.arb.inService = none ∧
      (asked on .setSilence [61#8]).turn .setSilence [61#8] [] ∧ (asked on .setSilence [60#8]).turn .setSilence [60#8] [] ∧
      let s := after (.setSilence 60) (asked on .setSilence [60#8])
      0 < s.mode.silenceTimeout ∧ s.mode.silenceElapsed = some 0 ∧ s.mode.authority = .directed :=
  ⟨⟨rfl, rfl, rfl⟩, ⟨rfl, rfl, rfl⟩, rfl, ⟨rfl, rfl, rfl⟩, ⟨rfl, rfl, rfl⟩, by decide +kernel⟩

/-- RELEASE_CONTROL with a step in flight, and halted with a waiting step that SHED preempts; the silence timer expires with a
step in flight. -/
theorem witness_Release_inService :
    (asked (inFlight on) .releaseControl []).turn .releaseControl [] [] ∧
      (∀ r, (inFlight on).arb.inService = some r → r.inFlight = true) ∧
      (asked halted .releaseControl []).turn .releaseControl [] [] ∧ halted.arb.halted = true ∧
      (∀ r, halted.arb.inService = some r → r.inFlight = false ∧ r.next < r.plan.steps.length ∧
        ∃ e, halted.arb.pending.has e = true ∧ r.taken.level.number < e.level.number) ∧
      let s := (inFlight on).modMode fun m => { m with silenceTimeout := 1, silenceElapsed := some 999 }
      0 < s.mode.silenceTimeout ∧ s.mode.silenceElapsed = some 999 ∧ s.mode.authority = .directed := by
  refine ⟨⟨rfl, rfl, rfl⟩, fun r hr => by cases hr; rfl, ⟨rfl, rfl, rfl⟩, rfl, fun r hr => ?_, by decide +kernel⟩
  cases hr
  exact ⟨rfl, by decide +kernel, ⟨.shed, .whole⟩, by decide +kernel, by decide +kernel⟩

/-- R171, R137, R64: L rises from 45000 to 140000 mW, and a draw limit of 900 mA to the contract's 2000 mA; a halted rebalance
that SHED preempts is abandoned. -/
theorem test_release_raises :
    let low := (feed .p1 .a 900 3000 (fedP1 2000 3)).modMode fun m => { m with limit := 45000 }
    let s := after .releaseControl (asked low .releaseControl [])
    let t := after .releaseControl (asked halted .releaseControl [])
    s.mode.limit = 140000 ∧ s.path.a.draw = 2000 ∧ t.arb.halted = false ∧
      t.arb.lastOutcome.map LastOutcome.result = some .abandoned ∧ t.arb.pending.has ⟨.gain, .port .p1⟩ = true := by
  decide +kernel

theorem witness_Snapshot_ClearEnergy_Events :
    (asked on .snapshot []).turn .snapshot [] [] ∧ (asked on .clearEnergy [5#8]).turn .clearEnergy [5#8] [] ∧
      (asked on .clearEnergy [4#8]).turn .clearEnergy [4#8] [] ∧
      (asked on .clearEvents (be32 (1#32 : Word32).toNat)).turn .clearEvents (be32 (1#32 : Word32).toNat) [] ∧
      (asked on .setEventMask (be32 (1#32 : Word32).toNat)).turn .setEventMask (be32 (1#32 : Word32).toNat) [] ∧
      exec .take on = .next (after .take on) ∧ Flag.all[16]? = some (.port .p3 .droop) :=
  ⟨⟨rfl, rfl, rfl⟩, ⟨rfl, rfl, rfl⟩, ⟨rfl, rfl, rfl⟩, ⟨rfl, rfl, rfl⟩, ⟨rfl, rfl, rfl⟩, rfl, rfl⟩

/-- SLEEP's bytes at the bounds of RANGE, 0 and 64, and 63; BUSY in DEBOUNCE; AWAKE on an asserted rail. -/
theorem test_sleep_checks :
    answered (.sleep 0) (asked on .sleep [0#8]) = some .range ∧ answered (.sleep 64) (asked on .sleep [64#8]) = some .range ∧
      answered (.sleep 63) (asked on .sleep [63#8]) = some .ok ∧
      answered (.sleep 63) (asked (withExchange .debounce none) .sleep [63#8]) = some .busy ∧
      answered (.sleep 16) (asked (after .railLowAssert on) .sleep [16#8]) = some .awake := by decide +kernel

theorem witness_SleepChecksAndSleeps :
    ∀ b ∈ [0#8, 63#8, 64#8], (asked on .sleep [b]).turn .sleep [b] [] := by
  intro b _; exact ⟨rfl, rfl, rfl⟩

/-- A SOFT_RESET's reply in progress. -/
def softReply (s : State) : State := s.modHost fun h => { h with reply := some ⟨some 0x18#8, .ok, []⟩ }

/-- The same, with P1 CLAIMING and P2 in STANDBY. -/
def softly : State := softReply (withPort (withExchange .claiming (aClaim .new 1)) .p2 (port .standby 1 []))

theorem witness_RepliesAndSoftReset :
    softly.host.reply = some ⟨some 0x18#8, .ok, []⟩ ∧ (softly.unit .p1).state = .claiming ∧
      (softly.unit .p2).state = .standby ∧ (asked on .softReset []).turn .softReset [] [] ∧
      (after .halt (asked on .halt [])).host.reply = some ⟨some 0x0E#8, .ok, []⟩ :=
  ⟨rfl, rfl, rfl, ⟨rfl, rfl, rfl⟩, by decide +kernel⟩

theorem test_soft_reset :
    ((after .replySent softly).unit .p1).state = .discover ∧ (after .replySent softly).arb.pending.count = 1 ∧
      (after .replySent softly).mode.authority = .autonomous := by decide +kernel

/-- P1's record with a presence level since 0, and a port in DEBOUNCE for 50 ms. -/
def presenceAt (x : PortState) (level : Bool) : State :=
  withPort on .p1 { PortUnit.reset true with state := x, presence := some ⟨level, 0⟩ }

/-- P1 and P2 CLAIMING on CLOSED paths, the battery absent. -/
def twoClaims : State :=
  let s := sole (changing .claiming (aClaim .raise 1))
  feed .p2 .b 2000 3000 (withPort s .p2 { exchanging .claiming (aClaim .raise 1) with
    contract := some (terms 1 .fixed 3 9000 2000) })

/-- Each clause on the ports that a SOFT reset restarts: a contract on a path that is no sole feed, one that is, two of which
the later is left as the sole feed, one absent; a discovery; a debounce. -/
theorem witness_SoftResetActsAfterItsReply_restarts :
    ((softReply (changing .switching (some (.settle 9000 0)))).unit .p1).SoftRestarts ∧
      ¬(softReply (changing .switching (some (.settle 9000 0)))).SoftSole .p1 ∧
      (softReply (sole (changing .claiming (aClaim .raise 1)))).SoftSole .p1 ∧
      (softReply twoClaims).SoftSole .p2 ∧ ¬(softReply twoClaims).SoftSole .p1 ∧
      (softly.unit .p1).contract = none ∧ ((softReply (withExchange .discover none)).unit .p1).speaks = true ∧
      ((softReply (presenceAt .debounce true)).unit .p1).isPresent = true ∧
      ((softReply (presenceAt .debounce false)).unit .p1).state = .debounce :=
  ⟨.inr rfl, fun h => absurd h.2.1 (by decide +kernel),
    ⟨by decide +kernel, by decide +kernel, fun q h hc => absurd hc (by revert h; cases q <;> decide +kernel)⟩,
    ⟨by decide +kernel, by decide +kernel, fun q h hc => ⟨.inl (by revert hc; cases q <;> decide +kernel),
      by revert h hc; cases q <;> decide +kernel, by revert h hc; cases q <;> decide +kernel⟩⟩,
    fun h => absurd (h.2.2 .p2 (by decide) (by decide +kernel)).2.2 (by decide),
    by decide +kernel, by decide +kernel, by decide +kernel, by decide +kernel⟩

/-- R91, R143, R145: a SOFT reset ends a restarted contract with its path, and demotes a sole feed's; both ports are in
DISCOVER behind the part's break, and no claim follows. -/
theorem test_soft_restart :
    let s := after .replySent (softReply (changing .switching (some (.settle 9000 0))))
    let t := after .replySent (softReply (sole (changing .claiming (aClaim .raise 1))))
    let u := after .replySent (softReply twoClaims)
    (s.unit .p1).contract = none ∧ s.path.a = ⟨none, 0⟩ ∧ (s.unit .p1).exchange = some (.query 1 none) ∧
      (t.unit .p1).state = .discover ∧ (t.unit .p1).contract.map Contract.power = some 4500 ∧
      (t.unit .p1).exchange = some (.query 1 none) ∧ (t.unit .p1).line.isBreaking = true ∧ t.path.a.draw = 900 ∧
      (u.unit .p1).contract = none ∧ (u.unit .p2).contract.isSome = true := by decide +kernel

/-- SET_PORT: rank 4 and mode 2 are RANGE, mode 1 on a port in use is NOT_OFF, rank 3 and derate 24 are CLAMPED. -/
theorem test_set_port_checks :
    let s := withPort on .p1 (port .standby 1 [])
    answered (.setPort 1 4 100 0) (asked s .setPort [1, 4, 100, 0]) = some .range ∧
      answered (.setPort 1 1 100 2) (asked s .setPort [1, 1, 100, 2]) = some .range ∧
      answered (.setPort 1 1 100 1) (asked s .setPort [1, 1, 100, 1]) = some .notOff ∧
      answered (.setPort 1 3 24 0) (asked s .setPort [1, 3, 24, 0]) = some .clamped := by decide +kernel

/-- P1 feeding on channel A, its derate lowered from 100 to 25. -/
theorem witness_SetPortWritesTheSettings :
    let s := changing .feeding none
    (asked s .setPort [1#8, 3#8, 25#8, 0#8]).turn .setPort [1#8, 3#8, 25#8, 0#8] [] ∧
      (1#8 : Byte).toNat = PortId.number .p1 ∧ PortId.number .p1 ≤ s.mode.straps.portCount ∧
      (s.unit .p1).contract.isSome = true ∧ s.channelOf .p1 = some .a ∧ s.mode.authority = .directed ∧
      min 100 (max 25 (25#8 : Byte).toNat) < (s.unit .p1).derate :=
  ⟨⟨rfl, rfl, rfl⟩, by decide +kernel⟩

/-- P1 feeding 9000 mV at 2000 mA, its derate at 50 and its draw limit at 1500 mA, raised to 51 and more; and BASIC_ONLY, its
derate lowered from 100. -/
theorem witness_SetPort_raise :
    let s := (fedP1 2000 3).modUnit .p1 fun u => { u with derate := 50 }
    (asked s .setPort [1#8, 1#8, 51#8, 0#8]).turn .setPort [1#8, 1#8, 51#8, 0#8] [] ∧
      (s.unit .p1).derate < min 100 (max 25 (51#8 : Byte).toNat) ∧ s.channelOf .p1 = some .a ∧
      (s.unit .p1).mode = .smart ∧ (basicFeed 900).channelOf .p1 = some .a ∧
      ((basicFeed 900).unit .p1).mode = .basicOnly ∧ ((basicFeed 900).unit .p1).contract.isSome = true ∧
      min 100 (max 25 (30#8 : Byte).toNat) < ((basicFeed 900).unit .p1).derate :=
  ⟨⟨rfl, rfl, rfl⟩, by decide +kernel⟩

/-- R137, R141: a derate raised from 50 to 60 lifts the draw limit from 1500 mA to the new Ider, 1800 mA; one lowered to 30
cuts a BASIC_ONLY port's to 270 mA. -/
theorem test_derate_raise :
    let s := feed .p1 .a 1500 3000 ((fedP1 2000 3).modUnit .p1 fun u => { u with derate := 50 })
    (after (.setPort 1 1 60 0) (asked s .setPort [1, 1, 60, 0])).path.a.draw = 1800 ∧
      (after (.setPort 1 1 30 1) (asked (basicFeed 900) .setPort [1, 1, 30, 1])).path.a.draw = 270 := by decide +kernel

theorem witness_PortEnable_Restart_Disable :
    let off := withPort on .p1 (PortUnit.reset true)
    let fed := changing .feeding none
    (asked off .portEnable [1#8]).turn .portEnable [1#8] [] ∧ (off.unit .p1).state = .off ∧
      (asked off .portRestart [1#8]).turn .portRestart [1#8] [] ∧
      (asked fed .portDisable [1#8]).turn .portDisable [1#8] [] ∧
      (asked fed .portRestart [1#8]).turn .portRestart [1#8] [] ∧ (fed.unit .p1).state ≠ .off ∧
      fed.soleFeed .p1 = false ∧ (sole fed).soleFeed .p1 = true ∧ fed.arb.inService = none ∧
      (fed.unit .p1).isPresent = true ∧ (fed.unit .p1).mode = .smart ∧ (fed.unit .p1).state.isProven = true :=
  ⟨⟨rfl, rfl, rfl⟩, rfl, ⟨rfl, rfl, rfl⟩, ⟨rfl, rfl, rfl⟩, ⟨rfl, rfl, rfl⟩, by decide +kernel⟩

/-- R116, R125: PORT_ENABLE while the part's own break is driven takes no quiet start; another party's pull is a low
run. -/
theorem test_enable_takes_the_line :
    let off (x : Transmitter) := withLine (withPort on .p1 (PortUnit.reset true)) fun l => { l with transmitter := x }
    let enabled (s : State) := ((after (.portEnable 1) (asked s .portEnable [1])).unit .p1).line
    (enabled (off (.breaking 0))).quietStart = none ∧ (enabled (off (.breaking 0))).lowStart = none ∧
      (enabled (off .idle)).quietStart = some 0 ∧ (enabled ((off .idle).setLineLow .p1 true)).lowStart = some 0 := by
  decide +kernel

/-- PORT_RESTART of a sole feed is refused, of a feed with the battery present it restarts the port. -/
theorem test_restart :
    answered (.portRestart 1) (asked (sole (changing .feeding none)) .portRestart [1]) = some .soleFeed ∧
      let s := after (.portRestart 1) (asked (changing .feeding none) .portRestart [1])
      (s.unit .p1).state = .discover ∧ (s.unit .p1).line.isBreaking = true ∧
        s.arb.pending.has ⟨.loss, .port .p1⟩ = true := by decide +kernel

theorem witness_RequestFramesBeginAndBreakOff :
    on.host.reception = .hunting ∧ (asleep on).mode.wakeSet.any (·.link) = true ∧
      (after .hostStartByte on).host.reception = .inFrame [] ∧
      (after .hostStartByte on).host.lastByteEnd = some 0 ∧ twoPorts.mode.power = .starting := by decide +kernel

/-- R180: a second start byte is the LEN byte, 165, which is above 60; one in the place of the kind is data; the gap is
beyond 5 ms on the time base, so at 6 (R147). -/
theorem test_start_byte_as_data :
    let s := on.modHost fun h => { h with reception := .inFrame [0x00#8], lastByteEnd := some 0 }
    (after .hostStartByte (after .hostStartByte on)).host.queue = [⟨.badFrame, none, []⟩] ∧
      readRequest ([0x00#8] ++ [0xA5#8]) = none ∧
      (after .hostStartByte s).host.reception = .inFrame [0x00#8, 0xA5#8] ∧
      (after .hostFrameGapTimeout s).clock.base = 6 ∧
      readRequest ([0x00#8, 0x5B#8] ++ [0xA5#8]) ≠ none := by decide +kernel

/-- LEN 60 and 61; a frame whose check fails; a kind that is none; a length of another kind. -/
theorem witness_CompleteFramesGetTheirVerdict :
    60 < (61#8 : Byte).toNat ∧ (60#8 : Byte).toNat = (List.replicate 60 0#8 : List Byte).length ∧
      (([0x00#8, 0x0E#8] ++ [0xF3#8] : List Byte).map BitVec.toNat).sum % 256 ≠ 0 ∧
      (∀ r : Request, r.code ≠ 0x19#8) ∧ Request.halt.length ≠ 1 := by
  refine ⟨by decide, by decide, by decide, fun r => ?_, by decide⟩
  cases r <;> decide

/-- A queue of three entries, and one of four, with a frame being received. -/
theorem witness_CompleteFramesAreOffered :
    let q (n : Nat) := (after .hostStartByte on).modHost fun h => { h with
      queue := List.replicate n (goodEntry .halt []) }
    (q 3).host.queue.length < 4 ∧ 4 ≤ (q 4).host.queue.length ∧ (q 3).host.reception = .inFrame [] ∧
      readRequest (writeRequest .halt []) = some (goodEntry .halt [], true) := by decide +kernel

theorem witness_RepliesAreFormedAndSent :
    let s := on.modHost fun h => { h with queue := [⟨.unknown, some 0x19#8, []⟩] }
    s.host.queue = [⟨.unknown, some 0x19#8, []⟩] ∧ s.mode.power = .active ∧ s.host.reply = none := by decide +kernel

theorem witness_PresenceIsDebounced :
    ((presenceAt .empty false).unit .p1).presence.map Presence.asserted = some false ∧
      (asleep on).mode.wakeSet.any (·.attachAny) = true ∧ ((presenceAt .standby true).unit .p1).isPresent = true ∧
      ((presenceAt .debounce true).unit .p1).presence = some ⟨true, 0⟩ ∧
      ((presenceAt .debounce true).unit .p1).contract = none ∧
      50 ≤ (({ presenceAt .debounce true with clock := ⟨50, 50000⟩ } : State).clock.base - 0).toNat := by decide +kernel

/-- R72: 49 ms are not enough, so DEBOUNCE_END lets one more pass. -/
theorem test_debounce_end :
    (after (.debounceEnd .p1) { presenceAt .debounce true with clock := ⟨49, 49000⟩ }).clock.base = 50 ∧
      ((after (.debounceEnd .p1) (presenceAt .debounce true)).unit .p1).state = .discover := by decide +kernel

theorem inFlight_last (s : State) : (inFlight s).LastStepOn .p1 oneStep :=
  ⟨rfl, rfl, rfl, rfl, _, rfl, rfl⟩

theorem witness_DetachEmptiesThePort :
    let s := withExchange .claiming (aClaim .new 1)
    (s.unit .p1).presence = some ⟨true, 0⟩ ∧ (s.unit .p1).state ≠ .off ∧ (s.unit .p1).state ≠ .empty ∧
      s.stepOn .p1 = false ∧ ∃ r, (inFlight s).LastStepOn .p1 r :=
  ⟨rfl, by decide, by decide, rfl, _, inFlight_last _⟩

/-- R61: a detach under the only step of a plan ends it ABORTED, and the rebalance PARTLY. -/
theorem test_detach_aborts :
    let s := after (.detach .p1) (inFlight (withExchange .claiming (aClaim .new 1)))
    (s.unit .p1).state = .empty ∧ s.arb.inService = none ∧
      s.arb.lastOutcome = some ⟨⟨.gain, .port .p1⟩, .partly, 1, 5⟩ ∧ s.host.flags.get (.port .p1 .detach) = true := by
  decide +kernel

/-- A rebalance of two steps, the first of them, on P1, in flight. -/
def midPlan (s : State) : State :=
  s.modArb fun a => { a with inService := some { oneStep with
    plan := { oneStep.plan with steps := oneStep.plan.steps ++ [⟨.p2, .new, some 1, some 1, some 5000, 900, 4500⟩] }
    results := [.inFlight, .waiting] } }

/-- A detach under a CLOSED path of a DORMANT part that selects DETACH_FEED, and under a step that is not the last. -/
theorem witness_DetachEmptiesThePort_more :
    let s := asleep (changing .feeding none)
    (s.portPath .p1).state = .closed ∧ s.mode.power = .dormant ∧ s.mode.wakeSet.any (·.detachFeed) = true ∧
      (s.unit .p1).presence = some ⟨true, 0⟩ ∧ (midPlan s).stepOn .p1 = true ∧
      ((midPlan s).unit .p1).presence = some ⟨true, 0⟩ := by decide +kernel

/-- R177, R61, R60: the detach wakes the part; with a step of two ABORTED, the CHANGE it posts preempts the GAIN. -/
theorem test_detach_goes_on :
    (after (.detach .p1) (asleep (changing .feeding none))).mode.power = .active ∧
      let s := after (.detach .p1) (midPlan (changing .claiming (aClaim .raise 1)))
      s.arb.inService = none ∧ s.arb.lastOutcome = some ⟨⟨.gain, .port .p1⟩, .abandoned, 1, 5⟩ := by decide +kernel

/-- PORT_DISABLE and PORT_RESTART with a step in flight on the port, last of its plan and not; a BASIC_ONLY port's among
them. -/
theorem witness_PortDisable_Restart_step :
    let basic := (withExchange .claiming none).modUnit .p1 fun u => { u with mode := .basicOnly }
    (asked (midPlan (changing .claiming (aClaim .raise 1))) .portDisable [1#8]).turn .portDisable [1#8] [] ∧
      (asked (midPlan (changing .claiming (aClaim .raise 1))) .portDisable [1#8]).stepOn .p1 = true ∧
      (asked (midPlan (changing .claiming (aClaim .raise 1))) .portDisable [1#8]).soleFeed .p1 = false ∧
      (asked (midPlan basic) .portRestart [1#8]).turn .portRestart [1#8] [] ∧ (midPlan basic).stepOn .p1 = true ∧
      ((midPlan basic).unit .p1).state.isProven = true ∧ ((midPlan basic).unit .p1).isPresent = true ∧
      (asked (inFlight (withExchange .claiming (aClaim .new 1))) .portRestart [1#8]).LastStepOn .p1 oneStep :=
  ⟨⟨rfl, rfl, rfl⟩, by decide +kernel, by decide +kernel, ⟨rfl, rfl, rfl⟩, by decide +kernel, by decide +kernel,
    by decide +kernel, ⟨rfl, rfl, rfl, rfl, _, rfl, rfl⟩⟩

/-- R55, R56: a disable and a restart under the only step of a plan abort it, with no denial cap, and the rebalance is
PARTLY. -/
theorem test_disable_and_restart_abort :
    let s := asked (inFlight (withExchange .claiming (aClaim .new 1)))
    let t := after (.portDisable 1) (s .portDisable [1])
    let u := after (.portRestart 1) (s .portRestart [1])
    (t.unit .p1).state = .off ∧ t.arb.lastOutcome.map LastOutcome.result = some .partly ∧
      (u.unit .p1).state = .discover ∧ (u.unit .p1).denialCap = none ∧
      u.arb.lastOutcome.map LastOutcome.result = some .partly ∧ u.host.reply.map Reply.status = some .ok := by decide +kernel

/-- P1 with each of its own timers running since 0. -/
def timed (x : PortState) : State :=
  withPort on .p1 { exchanging x none with
    discoveryStart := some 0, coolDownStart := some 0, cleanRunStart := some 0, resyncStart := some 0
    table := discoverTable }

theorem witness_PortTimersEnd :
    ((timed .discover).unit .p1).speaks = true ∧ ((timed .discover).unit .p1).discoveryStart = some 0 ∧
      ((timed .discover).unit .p1).table.gen = none ∧ ((timed .faulted).unit .p1).coolDownStart = some 0 ∧
      ((timed .faulted).unit .p1).contract = none ∧ ((feed .p1 .a 900 900 (timed .feeding)).portPath .p1).state = .closed ∧
      ((timed .feeding).unit .p1).cleanRunStart = some 0 := by decide +kernel

theorem test_port_timers :
    (after (.discoveryTimeout .p1) (timed .discover)).clock.base = 400 ∧
      (after (.coolDownEnd .p1) (timed .faulted)).clock.base = 2000 ∧
      ((after (.coolDownEnd .p1) (timed .faulted)).unit .p1).line.isBreaking = true ∧
      (after (.cleanRunEnd .p1) (feed .p1 .a 900 900 (timed .feeding))).clock.base = 10000 := by decide +kernel

/-- An OFFERS with nothing behind entry 0 finds a FIXED contract INVALID (R17). -/
theorem witness_OffersAreStored :
    (withExchange .standby none).delivers .p1 bareFrame (.offers 4 .adapter []) ∧
      (changing .feeding none).delivers .p1 bareFrame (.offers 4 .adapter []) ∧
      (withExchange .discover none).delivers .p1 bareFrame (.offers 4 .adapter []) ∧
      ((withExchange .standby none).unit .p1).claims = false ∧
      ((withExchange .standby none).unit .p1).line.isBreaking = false ∧
      (withExchange .claiming (aClaim .new 1)).delivers .p1 bareFrame (.offers 4 .adapter []) ∧
      ((withExchange .claiming (aClaim .new 1)).unit .p1).exchange = aClaim .new 1 := by
  unfold State.delivers; decide +kernel

/-- Chapter 1's eligibility example, on a cable of 15000 mV: each entry's eligibility and Vop. -/
theorem test_eligibility_example :
    [SentOffer.fixed 5000 3000, .fixed 9000 5500, .fixed 20000 2250, .range 3300 21000 65000, .range 16000 20000 45000,
      .range 9000 7000 30000, .range 5000 12000 120000].map (fun o => ((judge 15000 o).eligibility, (judge 15000 o).vop)) =
      [(.eligible, some 5000), (.clamped, some 9000), (.ineligible, none), (.clamped, some 15000), (.ineligible, none),
        (.ineligible, none), (.clamped, some 12000)] := by decide +kernel

/-- R4, R5 at their bounds and one step beyond: 5000 and 20000 mV, the cable's 15000 mV as B, 5000 mA and 100000 mW; and R5's
effective minimum, 5000 mV where less is sent. -/
theorem test_eligibility_bounds :
    [SentOffer.fixed 4950 3000, .fixed 20000 5000, .fixed 20050 3000, .fixed 20000 5010, .range 5000 4950 1000,
      .range 3000 5000 100000, .range 20000 20000 100000, .range 20050 21000 1000, .range 5000 20050 1000,
      .range 5000 20000 100250].map (fun o => ((judge 20000 o).eligibility, (judge 20000 o).vop)) =
      [(.ineligible, none), (.eligible, some 20000), (.ineligible, none), (.clamped, some 20000), (.ineligible, none),
        (.eligible, some 5000), (.eligible, some 20000), (.ineligible, none), (.clamped, some 20000),
        (.clamped, some 20000)] ∧
    [SentOffer.fixed 15000 3000, .fixed 15050 3000, .range 15000 15000 1000, .range 15050 16000 1000,
      .range 5000 15050 1000].map (fun o => (judge 15000 o).eligibility) =
      [.eligible, .ineligible, .eligible, .ineligible, .clamped] := by decide +kernel

/-- A dock's four offers, each judged; a FIXED contract at the clamped current and one step above, at an entry that is
INELIGIBLE, of another kind, of another voltage and none; a RANGE contract at the clamped power and above (R17). -/
theorem witness_OffersAreStored_entries :
    (withPort on .p3 (exchanging .standby none)).delivers .p3 dockFrame (.offers 9 .dock [.fixed 5000 3000,
        .fixed 9000 3000, .fixed 15000 3000, .fixed 20000 3250]) ∧
      let t := storedTable 15000 9 .dock [.fixed 9000 5500, .fixed 20000 3000, .range 5000 12000 30000]
      [terms 1 .fixed 8 9000 5000, terms 1 .fixed 8 9000 5010, terms 2 .fixed 8 20000 3000, terms 3 .fixed 8 12000 2500,
        terms 1 .fixed 8 5000 3000, terms 4 .fixed 8 9000 900, terms 3 .range 8 12000 2500,
        terms 3 .range 8 12000 2510].map t.verdict =
        [.valid, .invalid, .invalid, .invalid, .invalid, .invalid, .valid, .invalid] := by
  unfold State.delivers; decide +kernel

theorem test_invalid_offers :
    let s := after (.offers .p1 bareFrame) (changing .feeding none)
    s.path.a.draw = 900 ∧ (s.portPath .p1).ceiling = some 900 ∧ s.arb.pending.has ⟨.loss, .port .p1⟩ = true ∧
      ((s.unit .p1).contract.bind Contract.window) = some ⟨0, .invalid⟩ := by decide +kernel

/-- An OFFERS that crosses a RAISE's claim under a step, at any place of its plan. -/
theorem witness_OffersAreStored_step :
    (midPlan (changing .claiming (aClaim .raise 1))).delivers .p1 bareFrame (.offers 4 .adapter []) ∧
      ((midPlan (changing .claiming (aClaim .raise 1))).unit .p1).exchange = aClaim .raise 1 ∧
      (midPlan (changing .claiming (aClaim .raise 1))).stepOn .p1 = true ∧
      (inFlight (changing .claiming (aClaim .raise 1))).LastStepOn .p1 oneStep ∧
      (changing .claiming (aClaim .ret 1)).delivers .p1 bareFrame (.offers 4 .adapter []) :=
  ⟨⟨by decide +kernel, by decide +kernel⟩, by decide +kernel, by decide +kernel, inFlight_last _,
    ⟨by decide +kernel, by decide +kernel⟩⟩

/-- P1 claiming a LOWER within its voltage, 1500 mA at index 1. -/
def lowering : State :=
  (fedP1 2000 3).modUnit .p1 fun u => { u with
    state := .claiming, exchange := some (.claim .lower 1 1500 9000 (some 3) 1 0)
    contract := some { terms 1 .fixed 3 9000 2000 with change := some ⟨1, some 3, 1500, 9000⟩ } }

/-- P1, a sole feed, claiming its return to Basic. -/
def returning : State :=
  sole ((fedP1 900 3).modUnit .p1 fun u => { u with
    state := .claiming, exchange := some (.claim .ret 0 900 5000 (some 3) 1 0)
    contract := some (terms 0 .basic 3 5000 900) })

/-- GRANTs in generation 3 of index 1 and 1500 mA (001 0010010110 000) and of index 0 and 900 mA (000 0001011010 000). -/
def lowerGrant : List Byte := [0x13#8, 0x31#8, 0x24#8, 0xB0#8, crc8 [0x13#8, 0x31#8, 0x24#8, 0xB0#8]]
/-- The second of them. -/
def returnGrant : List Byte := [0x13#8, 0x31#8, 0x02#8, 0xD0#8, crc8 [0x13#8, 0x31#8, 0x02#8, 0xD0#8]]

theorem witness_GrantsAreTaken_step :
    (midPlan lowering).delivers .p1 lowerGrant (.grant 3 1 1500) ∧ (midPlan lowering).stepOn .p1 = true ∧
      (inFlight lowering).LastStepOn .p1 oneStep ∧
      ((midPlan lowering).unit .p1).exchange = some (.claim .lower 1 1500 9000 (some 3) 1 0) ∧
      (midPlan returning).delivers .p1 returnGrant (.grant 3 0 900) ∧ (midPlan returning).stepOn .p1 = true ∧
      ((midPlan returning).unit .p1).exchange = some (.claim .ret 0 900 5000 (some 3) 1 0) :=
  ⟨⟨by decide +kernel, by decide +kernel⟩, by decide +kernel, inFlight_last _, by decide +kernel,
    ⟨by decide +kernel, by decide +kernel⟩, by decide +kernel, by decide +kernel⟩

/-- R101, R54: a LOWER granted within its voltage is DONE, a return to Basic is a step FAILED with its denial cap. -/
theorem test_grants_end_steps :
    let s := after (.grant .p1 lowerGrant) (inFlight lowering)
    let t := after (.grant .p1 returnGrant) (inFlight returning)
    (s.unit .p1).contract.map Contract.current = some 1500 ∧ s.arb.lastOutcome.map LastOutcome.result = some .done ∧
      (t.unit .p1).state = .feeding ∧ (t.unit .p1).denialCap = some ⟨4500, some 3⟩ ∧
      t.arb.lastOutcome.map LastOutcome.result = some .partly := by decide +kernel

theorem witness_GrantsAreTaken :
    (withExchange .claiming (aClaim .new 1)).delivers .p1 grantFrame (.grant 3 2 3000) ∧
      ((withExchange .claiming (aClaim .new 1)).unit .p1).exchange = some (.claim .new 2 3000 20000 (some 3) 1 0) ∧
      (changing .claiming (aClaim .raise 1)).delivers .p1 grantFrame (.grant 3 2 3000) ∧
      (((changing .claiming (aClaim .raise 1)).unit .p1).contract.bind Contract.change) =
        some ⟨2, some 3, 3000, 20000⟩ ∧
      ((changing .claiming (aClaim .raise 1)).unit .p1).contract.map Contract.vop = some 9000 ∧
      (changing .claiming (aClaim .raise 1)).stepOn .p1 = false := by
  unfold State.delivers; decide +kernel

/-- P1 in DISCOVER, its QUERY behind the part's break, and in STANDBY behind one. -/
def behindBreak (x : PortState) (e : Option Exchange) : State :=
  withLine (withExchange x e) fun l => { l with transmitter := .breaking 0 }

/-- R104's discards: a GRANT and a DENY that find no claim, a DENY and a READY of another generation, a RATING that finds no
QUERY; a GRANT that comes while a QUERY waits behind the part's break. -/
theorem witness_GrantsAreTaken_discards :
    (withExchange .standby none).delivers .p1 grantFrame (.grant 3 2 3000) ∧
      ((withExchange .standby none).unit .p1).claims = false ∧
      (withExchange .claiming (some (.claim .new 2 3000 20000 (some 4) 1 0))).delivers .p1 denyFrame (.deny 3 .over) ∧
      (withExchange .switching (some (.ready (some 4) 0))).delivers .p1 readyFrame (.ready 3) ∧
      (behindBreak .standby none).delivers .p1 ratingFrame (.rating 5000 20000) ∧
      ((behindBreak .standby none).unit .p1).queryAttempt = none ∧
      (behindBreak .discover (some (.query 1 none))).delivers .p1 grantFrame (.grant 3 2 3000) ∧
      ((behindBreak .discover (some (.query 1 none))).unit .p1).queryBehindBreak = some 1 := by
  unfold State.delivers; decide +kernel

/-- R104, R95: each leaves the exchange as it was, but that the QUERY is handed over at the break's end, at 3 ms. -/
theorem test_discards :
    let left (i : Instr) (s : State) := ((after i s).unit .p1).exchange
    left (.grant .p1 grantFrame) (withExchange .standby none) = none ∧
      left (.deny .p1 denyFrame) (withExchange .claiming (some (.claim .new 2 3000 20000 (some 4) 1 0))) =
        some (.claim .new 2 3000 20000 (some 4) 1 0) ∧
      left (.ready .p1 readyFrame) (withExchange .switching (some (.ready (some 4) 0))) = some (.ready (some 4) 0) ∧
      left (.rating .p1 ratingFrame) (withExchange .standby none) = none ∧
      left (.grant .p1 grantFrame) (behindBreak .discover (some (.query 1 none))) = some (.query 1 (some 3)) := by
  decide +kernel

/-- R104: a GRANT of another index than the claim's does nothing to the port. -/
theorem test_grants :
    ((after (.grant .p1 grantFrame) (withExchange .claiming (some (.claim .new 1 3000 20000 (some 3) 1 0)))).unit
      .p1).state = .claiming ∧
    ((after (.grant .p1 grantFrame) (changing .claiming (aClaim .raise 1))).unit .p1).exchange =
      some (.ready (some 3) 0) := by decide +kernel

theorem witness_DenialsEndTheClaim :
    (changing .claiming (aClaim .lower 1)).delivers .p1 denyFrame (.deny 3 .over) ∧
      ((changing .claiming (aClaim .lower 1)).unit .p1).exchange = some (.claim .lower 2 3000 20000 (some 3) 1 0) ∧
      (changing .claiming (aClaim .lower 1)).soleFeed .p1 = false ∧
      (changing .claiming (aClaim .lower 1)).stepOn .p1 = false ∧
      (sole (changing .claiming (aClaim .ret 1))).delivers .p1 denyFrame (.deny 3 .over) ∧
      (sole (changing .claiming (aClaim .ret 1))).soleFeed .p1 = true := by
  unfold State.delivers; decide +kernel

/-- R102, R21: a denied NEW, the only step of its plan, goes back to STANDBY with a denial cap of 0. -/
theorem test_denial :
    let s := after (.deny .p1 denyFrame) (inFlight (withExchange .claiming (aClaim .new 1)))
    (s.unit .p1).state = .standby ∧ (s.unit .p1).denialCap = some ⟨0, some 3⟩ ∧
      s.arb.lastOutcome.map LastOutcome.result = some .partly := by decide +kernel

/-- A DENY of a sole feed's LOWER and of its return to Basic, under a step. -/
theorem witness_DenialsEndTheClaim_step :
    (midPlan (sole lowering)).delivers .p1 denyFrame (.deny 3 .over) ∧ (midPlan (sole lowering)).stepOn .p1 = true ∧
      (midPlan (sole lowering)).soleFeed .p1 = true ∧ (midPlan lowering).soleFeed .p1 = false ∧
      (midPlan returning).delivers .p1 denyFrame (.deny 3 .over) ∧ (inFlight lowering).LastStepOn .p1 oneStep :=
  ⟨⟨by decide +kernel, by decide +kernel⟩, by decide +kernel, by decide +kernel, by decide +kernel,
    ⟨by decide +kernel, by decide +kernel⟩, inFlight_last _⟩

/-- R14, R54: a sole feed whose LOWER is denied is demoted and claims Basic, its step still in flight; any other has lost
its contract. -/
theorem test_denied_lower :
    let s := after (.deny .p1 denyFrame) (inFlight (sole lowering))
    let t := after (.deny .p1 denyFrame) (inFlight lowering)
    (s.unit .p1).exchange = some (.claim .ret 0 900 5000 (some 3) 1 0) ∧ s.stepOn .p1 = true ∧
      (s.portPath .p1).state = .closed ∧ (t.unit .p1).contract = none ∧ (t.portPath .p1).state = .openPath ∧
      t.arb.lastOutcome.map LastOutcome.result = some .partly := by decide +kernel

/-- R13, R144: at a cable of 500 mA and a derate of 33 % a demotion leaves 160 mA, and channel B as it was. -/
theorem test_demoted_draw :
    let s := (sole lowering).modUnit .p1 fun u => { u with derate := 33, cable := some ⟨500, 20000⟩ }
    let t := after (.deny .p1 denyFrame) s
    t.path.a = ⟨some .p1, 160⟩ ∧ t.path.b = ⟨none, 0⟩ ∧ (t.portPath .p1).offerCurrent = some 500 := by decide +kernel

/-- A READY wait, with a measured voltage. -/
def waiting (s : State) (v : Nat) : State := s.modPins fun x => { x with sense := .all ⟨v, 0⟩ }

/-- P1 in SWITCHING for its first contract, 20000 mV and 3000 mA, and in PRECHARGE on channel A. -/
def switching : State :=
  withPort on .p1 { exchanging .switching (some (.ready (some 3) 0)) with contract := some (terms 2 .fixed 3 20000 3000) }

/-- The same port in PRECHARGE on channel A. -/
def prechargingP1 : State :=
  (switching.modChan .a fun _ => ⟨some .p1, 0⟩).modPortPath .p1 fun _ => ⟨.precharge, some 0, some 3000, none⟩

/-- 19000 and 21000 mV are in the window, 18999 and 21001 mV are not. -/
theorem witness_VoltageIsAccepted :
    (waiting switching 19000).delivers .p1 readyFrame (.ready 3) ∧
      ((waiting switching 19000).unit .p1).exchange = some (.ready (some 3) 0) ∧
      (waiting switching 19000).stepOn .p1 = false ∧ (waiting switching 19000).freeChannel = some .a ∧
      (waiting switching 19000).voltage .p1 = 20000 - 20000 / 20 ∧
      (waiting switching 21001).voltage .p1 = 20000 + 20000 / 20 + 1 ∧
      ((waiting switching 19000).portPath .p1).state ≠ .closed ∧
      (prechargingP1.portPath .p1).state = .precharge ∧ (prechargingP1.portPath .p1).prechargeStart = some 0 ∧
      prechargingP1.channelOf .p1 = some .a := by
  unfold State.delivers; decide +kernel

/-- READY and PRECHARGE_END with the step in flight: of a NEW with and without a free channel, of a change, and of a sole
feed. -/
theorem witness_VoltageIsAccepted_step :
    let new := waiting switching 21000
    let change := waiting (changing .switching (some (.ready (some 3) 0)))
    (inFlight new).delivers .p1 readyFrame (.ready 3) ∧ (inFlight new).stepOn .p1 = true ∧
      (inFlight new).LastStepOn .p1 oneStep ∧
      ((new.modChan .a fun _ => ⟨some .p2, 0⟩).modChan .b fun _ => ⟨some .p3, 0⟩).freeChannel = none ∧
      (midPlan (change 8550)).delivers .p1 readyFrame (.ready 3) ∧ (midPlan (change 8550)).stepOn .p1 = true ∧
      ((change 8550).portPath .p1).state = .closed ∧ (change 8550).voltage .p1 = 9000 - 9000 / 20 ∧
      (change 9451).voltage .p1 = 9000 + 9000 / 20 + 1 ∧ (sole (change 9451)).soleFeed .p1 = true ∧
      (midPlan (waiting prechargingP1 19000)).stepOn .p1 = true ∧
      (waiting prechargingP1 19000).path.a.bound ≠ (waiting prechargingP1 19000).path.b.bound :=
  ⟨⟨by decide +kernel, by decide +kernel⟩, by decide +kernel, inFlight_last _, by decide +kernel,
    ⟨by decide +kernel, by decide +kernel⟩, by decide +kernel⟩

/-- R106, R131, R133, R54: a READY outside the window fails the step; PRECHARGE_END in it completes the plan; a sole feed
whose change fails is demoted with its step in flight. -/
theorem test_voltage_steps :
    let s := after (.ready .p1 readyFrame) (inFlight (waiting switching 18999))
    let t := after (.prechargeEnd .p1) (inFlight (waiting prechargingP1 19000))
    let u := after (.ready .p1 readyFrame)
      (inFlight (sole (waiting (changing .switching (some (.ready (some 3) 0))) 9451)))
    (s.unit .p1).denialCap = some ⟨0, some 3⟩ ∧ s.arb.lastOutcome.map LastOutcome.result = some .partly ∧
      t.path.statusOutput = true ∧ t.arb.lastOutcome.map LastOutcome.result = some .done ∧
      (u.unit .p1).state = .claiming ∧ u.stepOn .p1 = true := by decide +kernel

theorem test_voltage :
    ((after (.ready .p1 readyFrame) (waiting switching 19000)).portPath .p1).state = .precharge ∧
      ((after (.ready .p1 readyFrame) (waiting switching 18999)).unit .p1).state = .standby ∧
      (after (.prechargeEnd .p1) (waiting prechargingP1 21000)).path.a.draw = 3000 ∧
      ((after (.prechargeEnd .p1) (waiting prechargingP1 21001)).unit .p1).contract = none := by decide +kernel

theorem witness_QueriesEnd :
    (withExchange .discover (some (.query 1 (some 0)))).delivers .p1 ratingFrame (.rating 5000 20000) ∧
      ((withExchange .discover (some (.query 1 (some 0)))).unit .p1).exchange = some (.query 1 (some 0)) ∧
      ((withExchange .discover (some (.query 1 (some 0)))).unit .p1).contract = none ∧
      ((withExchange .discover (some (.query 1 (some 0)))).unit .p1).line.isBreaking = false := by
  unfold State.delivers; decide +kernel

/-- RATINGs of 900 mA and 20000 mV, and of 500 mA. -/
def ratingOf (units : Byte) : List Byte :=
  [0x27#8, 0x01#8, units, 0x28#8, crc8 [0x27#8, 0x01#8, units, 0x28#8]]

/-- P1 in DISCOVER with a Basic contract of 900 mA kept on channel A, its QUERY outstanding, an OFFERS stored. -/
def keptBasic : State :=
  (fedP1 900 3).modUnit .p1 fun u => { u with
    state := .discover, exchange := some (.query 1 (some 0)), contract := some (terms 0 .basic 3 5000 900), derate := 60 }

/-- A cable of 900 mA is enough for the kept contract, one of 850 mA is not. -/
theorem witness_QueriesEnd_kept :
    keptBasic.delivers .p1 (ratingOf 0x12#8) (.rating 900 20000) ∧
      keptBasic.delivers .p1 (ratingOf 0x11#8) (.rating 850 20000) ∧
      (keptBasic.unit .p1).exchange = some (.query 1 (some 0)) ∧ (keptBasic.unit .p1).state = .discover ∧
      (keptBasic.unit .p1).contract = some (terms 0 .basic 3 5000 900) ∧ keptBasic.channelOf .p1 = some .a := by
  unfold State.delivers; decide +kernel

/-- R8, R139: a RATING of 850 mA lowers the kept contract to 850 mA and 4250 mW and cuts its draw limit to Ider at 60 %,
510 mA; one of 900 mA leaves both. -/
theorem test_kept_basic_lowered :
    let s := after (.rating .p1 (ratingOf 0x11#8)) keptBasic
    let t := after (.rating .p1 (ratingOf 0x12#8)) keptBasic
    (s.unit .p1).contract = some (terms 0 .basic 3 5000 850) ∧ s.path.a.draw = 510 ∧ (s.unit .p1).state = .feeding ∧
      s.arb.pending.has ⟨.change, .port .p1⟩ = true ∧ s.arb.pending.has ⟨.gain, .port .p1⟩ = true ∧
      (t.unit .p1).contract = some (terms 0 .basic 3 5000 900) ∧ t.path.a.draw = 900 ∧
      t.arb.pending.has ⟨.change, .port .p1⟩ = false := by decide +kernel

theorem test_query_attempts :
    ((after (.queryWaitExpiry .p1) (withExchange .discover (some (.query 1 (some 0))))).unit .p1).exchange =
      some (.query 2 (some 30)) ∧
    ((after (.queryWaitExpiry .p1) (withExchange .discover (some (.query 2 (some 0))))).unit .p1).queryEnded = true := by
  decide +kernel

/-- P1 feeding with a window of some verdict running since 0. -/
def windowed (v : Validity) : State :=
  (changing .feeding none).modUnit .p1 fun u => { u with
    contract := u.contract.map fun k => { k with window := some ⟨0, v⟩ } }

theorem witness_WaitsRunOut :
    ((withExchange .claiming (aClaim .new 2)).unit .p1).exchange = some (.claim .new 2 3000 20000 (some 3) 2 0) ∧
      ((changing .switching (some (.settle 9000 0))).unit .p1).settleStart = some 0 ∧
      (changing .switching (some (.settle 9000 0))).soleFeed .p1 = false ∧
      (sole (changing .switching (some (.settle 9000 0)))).soleFeed .p1 = true ∧
      ((windowed .invalid).unit .p1).contract.bind Contract.window = some ⟨0, .invalid⟩ ∧
      ((windowed .valid).unit .p1).contract.bind Contract.window = some ⟨0, .valid⟩ ∧
      ((windowed .valid).unit .p1).claims = false ∧ (windowed .valid).stepOn .p1 = false := by decide +kernel

/-- P1 claiming a LOWER under a VALID window. -/
def windowedClaim : State :=
  (windowed .valid).modUnit .p1 fun u => { u with state := .claiming, exchange := aClaim .lower 1 }

/-- P1's CLAIM being sent since 0, after some collisions. -/
def sendingClaim (n : Nat) : State :=
  withLine (withExchange .claiming (aClaim .new 1)) fun l =>
    { l with transmitter := .sending 0, held := some (claimFrame 2 3000 20000 (some 3)), collisions := n }

/-- SETTLE waits under a step; a CLAIM being sent when its attempt ends. -/
theorem witness_WaitsRunOut_step :
    ((midPlan windowedClaim).unit .p1).claims = true ∧ (midPlan windowedClaim).stepOn .p1 = true ∧
      ((midPlan windowedClaim).unit .p1).contract.bind Contract.window = some ⟨0, .valid⟩ ∧
      (midPlan (changing .switching (some (.settle 9000 0)))).stepOn .p1 = true ∧
      (inFlight (changing .switching (some (.settle 9000 0)))).LastStepOn .p1 oneStep ∧
      ((sendingClaim 0).unit .p1).line.transmitter = .sending 0 ∧
      (sendingClaim 0).pins.lineLow.get .p1 = false ∧ claimFrame 2 3000 20000 (some 3) ≠ [] ∧
      0 ≤ (sendingClaim 0).clock.bit :=
  ⟨by decide +kernel, by decide +kernel, by decide +kernel, by decide +kernel, inFlight_last _, by decide +kernel⟩

/-- R107, R54: a SETTLE that runs out fails its step; log 17: a VALID window gives the claim up. -/
theorem test_waits_fail_steps :
    let s := after (.settleTimeout .p1) (inFlight (changing .switching (some (.settle 9000 0))))
    let t := after (.windowExpiry .p1) (inFlight windowedClaim)
    (s.unit .p1).denialCap = some ⟨0, some 3⟩ ∧ s.arb.lastOutcome.map LastOutcome.result = some .partly ∧
      (t.unit .p1).state = .feeding ∧ (t.unit .p1).exchange = none ∧
      (t.unit .p1).denialCap = some ⟨18000, some 3⟩ := by decide +kernel

theorem test_waits :
    ((after (.claimWaitExpiry .p1) (withExchange .claiming (aClaim .new 2))).unit .p1).exchange =
      some (.claim .new 2 3000 20000 (some 3) 3 30) ∧
    ((after (.settleTimeout .p1) (changing .switching (some (.settle 9000 0)))).unit .p1).state = .standby ∧
    ((after (.windowExpiry .p1) (windowed .invalid)).unit .p1).contract = none ∧
    ((after (.windowExpiry .p1) (windowed .valid)).unit .p1).contract.map Contract.window = some none := by
  decide +kernel

theorem witness_LineFaultsRestartThePort :
    (switching.unit .p1).readyStart = some 0 ∧ (switching.unit .p1).speaks = true ∧ switching.stepOn .p1 = false ∧
      ((withExchange .claiming (aClaim .new 3)).unit .p1).claimAttempt = some (3, 0) ∧
      ((timed .feeding).unit .p1).resyncStart = some 0 ∧ ((timed .standby).unit .p1).resyncStart = some 0 ∧
      (switching.unit .p1).listens = true ∧ (switching.unit .p1).line.isSending = false ∧
      (switching.unit .p1).line.isBreaking = false ∧ (switching.unit .p1).line.lowStart = none ∧
      (sole (changing .feeding none)).soleFeed .p1 = true := by decide +kernel

/-- A READY wait, a third CLAIM attempt, a resync and a break, each with a step in flight; a sole feed's READY wait. -/
theorem witness_LineFaults_step :
    (midPlan switching).stepOn .p1 = true ∧ (inFlight switching).LastStepOn .p1 oneStep ∧
      (midPlan (withExchange .claiming (aClaim .new 3))).stepOn .p1 = true ∧ ((timed .standby).unit .p1).speaks = true ∧
      ((timed .faulted).unit .p1).listens = true ∧ ((timed .discover).unit .p1).listens = true ∧
      (sole (changing .switching (some (.ready (some 3) 0)))).soleFeed .p1 = true ∧
      ((sole (changing .switching (some (.ready (some 3) 0)))).unit .p1).contract.isSome = true :=
  ⟨by decide +kernel, inFlight_last _, by decide +kernel⟩

/-- R83, R54: the step of a READY wait that runs out has FAILED, and its plan goes on. -/
theorem test_line_fault_fails_step :
    let s := after (.readyTimeout .p1) (inFlight switching)
    s.arb.inService = none ∧ s.arb.lastOutcome.map LastOutcome.result = some .partly ∧
      (s.unit .p1).state = .discover := by decide +kernel

theorem test_line_faults :
    ((after (.readyTimeout .p1) switching).unit .p1).restarts = 1 ∧
      ((after (.claimWaitExpiry .p1) (withExchange .claiming (aClaim .new 3))).unit .p1).state = .discover ∧
      ((after (.readyTimeout .p1) (switching.modUnit .p1 fun u => { u with restarts := 2 })).unit .p1).legacy = true ∧
      ((after (.breakReceived .p1) switching).unit .p1).line.isBreaking = false ∧
      ((after (.resyncExpiry .p1) (timed .standby)).unit .p1).restarts = 0 := by decide +kernel

theorem witness_LinesReceive :
    ((withExchange .standby none).unit .p1).state ≠ .off ∧ ((withExchange .standby none).unit .p1).line.isBreaking = false ∧
      frameComplete [0x15#8, 0x30#8, 0x00#8] = true ∧ readFrame [0x15#8, 0x30#8, 0x00#8] = none ∧
      let s := after (.syncByteTaken .p1) (withExchange .standby none)
      (s.unit .p1).line.lastByteEnd = some 0 ∧ (s.unit .p1).line.reception ≠ .hunting ∧
        (asleep on).mode.wakeSet.any (·.lineAny) = true := by decide +kernel

theorem test_line_gap :
    (after (.lineGapTimeout .p1) (after (.syncByteTaken .p1) (withExchange .standby none))).clock.bit = 1000 ∧
      (after (.startOfFrameReport .p1) (asleep (withExchange .standby none))).mode.power = .active ∧
      ((after (.lineFramingError .p1) (withExchange .standby none)).pins.lineLow.get .p1) = true := by decide +kernel

/-- A part whose bit timer stands at some µs, its line high since 0. -/
def atMicro (us : Nat) (s : State) : State :=
  { withLine s (fun l => { l with quietStart := some 0 }) with clock := ⟨BitVec.ofNat 32 (us / 1000), us⟩ }

/-- Chapter 6's worked sequence: a low from 80040.00 ms shows its framing error at 80040.10 and is a break at 80042.00,
reported once. -/
theorem test_break_after_framing_error :
    let s := after (.lineFramingError .p1) (atMicro 80040100 (withExchange .faulted none))
    let t := after (.breakReceived .p1) s
    (s.unit .p1).line.lowStart = some 80040000 ∧ t.clock.bit = 80042000 ∧ (t.unit .p1).line.breakReported = true ∧
      after (.breakReceived .p1) t = t := by decide +kernel

/-- R126: a framing error within a low moves neither its start nor its report, so the break comes 2 ms after the reported
fall, and one low is reported once. -/
theorem test_framing_error_in_low :
    let s := after (.startOfFrameReport .p1) (atMicro 5000 (withExchange .standby none))
    let t := after (.breakReceived .p1) (after (.lineFramingError .p1) s)
    let u := after (.lineFramingError .p1) t
    (s.unit .p1).line.lowStart = some 5000 ∧ t.clock.bit = 7000 ∧ (u.unit .p1).line.breakReported = true ∧
      after (.breakReceived .p1) u = u := by decide +kernel

/-- R126, R127: a low run starts no earlier than the release of the part's own break, and than the move out of OFF, so a
break comes 2 ms after it. -/
theorem test_low_run_after_the_rise :
    let s := after (.lineFramingError .p1) (after (.breakRelease .p1)
      (atMicro 9000 (withLine (withExchange .faulted none) fun l => { l with transmitter := .breaking 8900 })))
    let t := after (.lineFramingError .p1) (after .startingEnd twoPorts)
    (s.unit .p1).line.lowStart = some 11900 ∧ (after (.breakReceived .p1) s).clock.bit = 13900 ∧
      (t.unit .p1).line.lowStart = some 10000 := by decide +kernel

/-- R117, R126: a byte that ends right after the start of its frame has been reported rises no earlier than that fall. -/
theorem test_rise_after_the_fall :
    ((after (.syncByteTaken .p1) (after (.startOfFrameReport .p1) (atMicro 5000 (withExchange .standby none)))).unit
      .p1).line.quietStart = some 5000 ∧
    ((after (.syncByteTaken .p1) (atMicro 5000 (withExchange .standby none))).unit .p1).line.quietStart = some 4970 := by
  decide +kernel

/-- R117, R126: a framing error 1 ms after a reported break is a byte's with a fall of its own, so a second break comes 2 ms
after that fall; two framing errors are two bytes. -/
theorem test_low_run_after_the_break :
    let s := after (.breakReceived .p1) (withExchange .faulted none)
    let t := after (.lineFramingError .p1) { s with clock := ⟨3, 3000⟩ }
    let u := after (.breakReceived .p1) t
    s.clock.bit = 2000 ∧ (t.unit .p1).line.lowStart = some 2900 ∧ (t.unit .p1).line.breakReported = false ∧
      u.clock.bit = 4900 ∧ (u.unit .p1).line.breakReported = true ∧
      ((after (.lineFramingError .p1) t).unit .p1).line.lowStart = some 3000 := by decide +kernel

/-- R117, R126: the stop bit of a byte holds the line high to its end, so a low run starts no earlier, and its break comes 2 ms
after that. -/
theorem test_low_run_after_the_byte :
    let s := after (.lineFramingError .p1) (after (.syncByteTaken .p1) (atMicro 5000 (withExchange .standby none)))
    let t := after (.lineFramingError .p1) (after (.frameSent .p1) (atMicro 5000 (withLine (withExchange .discover none)
      fun l => { l with transmitter := .sending 4600, held := some queryFrame })))
    (s.unit .p1).line.lowStart = some 5000 ∧ (after (.breakReceived .p1) s).clock.bit = 7000 ∧
      (t.unit .p1).line.lowStart = some 5000 ∧ t.clock.bit = 5000 := by decide +kernel

/-- R125: the framing error of the part's own break sets no low run, and the line is high at the release. -/
theorem test_own_break :
    let s := after (.breakRelease .p1) (after (.lineFramingError .p1)
      (atMicro 9000 (withLine (withExchange .faulted none) fun l => { l with transmitter := .breaking 8900 })))
    (s.unit .p1).line.lowStart = none ∧ (s.unit .p1).line.quietStart = some 11900 ∧
      s.pins.lineLow.get .p1 = false := by decide +kernel

/-- R117, R118: a second 0xC3 is the frame's header byte, and the gap runs from its end. -/
theorem test_sync_byte_as_data :
    let s := after (.syncByteTaken .p1) (atMicro 500 (after (.syncByteTaken .p1) (withExchange .standby none)))
    (s.unit .p1).line.reception = .inFrame [0xC3#8] ∧ (s.unit .p1).line.lastByteEnd = some 500 ∧
      (after (.lineGapTimeout .p1) s).clock.bit = 1500 := by decide +kernel

/-- A framing error 100 µs after reset; a frame whose last byte equals the sync byte, and one that goes on. -/
theorem witness_LinesReceive_more :
    let low := after (.lineFramingError .p1) (atMicro 100 (withExchange .standby none))
    (low.unit .p1).line.lowStart = some 0 ∧ 100 ≤ (atMicro 100 on).clock.bit ∧
      ((withLine on fun l => { l with reception := .inFrame [0x15#8, 0x30#8] }).unit .p1).line.reception =
        .inFrame [0x15#8, 0x30#8] ∧
      frameComplete ([0x15#8, 0x30#8] ++ [0xC3#8]) = true ∧ frameComplete ([] ++ [0xC3#8]) = false ∧
      receptionOf .p1 [0x15#8, 0x30#8, 0xC3#8] = .dialogueFrameReject .p1 [0x15#8, 0x30#8, 0xC3#8] := by decide +kernel

/-- P1's QUERY held by a line in some transmitter state. -/
def sendingLine (x : Transmitter) (n : Nat) : State :=
  withLine (withExchange .discover (some (.query 1 (some 0)))) fun l =>
    { l with transmitter := x, held := some queryFrame, quietStart := some 0, collisions := n }

theorem witness_LinesSend :
    ((sendingLine .waiting 0).unit .p1).line.transmitter = .waiting ∧
      (sendingLine .waiting 0).pins.lineLow.get .p1 = false ∧
      ((sendingLine .backoff 1).unit .p1).line.quietStart = some 0 ∧
      ((sendingLine (.sending 0) 2).unit .p1).line.held = some queryFrame ∧
      ((sendingLine (.sending 0) 2).unit .p1).queryAttempt = some 1 ∧
      ((sendingLine (.breaking 0) 0).unit .p1).queryBehindBreak = none ∧
      ((withExchange .discover (some (.query 1 none))).unit .p1).queryBehindBreak = some 1 := by decide +kernel

theorem test_sending :
    (after (.transmitStart .p1) (sendingLine .waiting 0)).clock.bit = 1000 ∧
      (after (.backoffRetry .p1) (sendingLine .backoff 1)).clock.bit = 3000 ∧
      (after (.frameSent .p1) (sendingLine (.sending 0) 0)).clock.bit = 400 ∧
      ((after (.collision .p1) (sendingLine (.sending 0) 1)).unit .p1).line.transmitter = .backoff ∧
      ((after (.collision .p1) (sendingLine (.sending 0) 2)).unit .p1).exchange = some (.query 2 (some 0)) ∧
      (after (.breakRelease .p1) (sendingLine (.breaking 0) 0)).clock.bit = 3000 := by decide +kernel

/-- R123, R126: the line is low at a collision, so the retry waits for 3 ms from its rise, quiet as it was before. -/
theorem test_collision_and_retry :
    let s := after (.collision .p1) (atMicro 5000 (sendingLine (.sending 4950) 0))
    s.pins.lineLow.get .p1 = true ∧ (after (.backoffRetry .p1) s).clock.bit = 8000 := by decide +kernel

/-- R122, R124: a frame stopped in a low bit lets the line rise, and the next hand-over waits 1 ms from there. -/
theorem test_quiet_after_withdrawal :
    let s := atMicro 30000 (withLine (sendingClaim 0) fun l => { l with transmitter := .sending 29995 })
    let t := after (.transmitStart .p1) (after (.claimWaitExpiry .p1) s)
    t.clock.bit = 31000 := by decide +kernel

/-- The third collision of a CLAIM; a break released in OFF, and with another party pulling. -/
theorem witness_LinesSend_more :
    ((sendingClaim 2).unit .p1).line.isSending = true ∧ ((sendingClaim 2).unit .p1).line.collisions = 2 ∧
      ((sendingClaim 2).unit .p1).claims = true ∧ ((sendingClaim 2).unit .p1).speaks = true ∧
      (inFlight (sendingClaim 2)).stepOn .p1 = true ∧
      let breaking (x : PortState) := withLine (withExchange x none) fun l => { l with transmitter := .breaking 0 }
      ((breaking .off).unit .p1).line.transmitter = .breaking 0 ∧ ((breaking .off).unit .p1).state = .off ∧
        ((breaking .standby).setLineLow .p1 true).pins.lineLow.get .p1 = true := by decide +kernel

/-- The third collision, met at a framing error, of a QUERY's two attempts and of a CLAIM. -/
theorem witness_LinesReceive_collision :
    let second := withExchange .discover (some (.query 2 (some 0)))
    let s := withLine second fun l => { l with transmitter := .sending 0, held := some queryFrame, collisions := 2 }
    ((sendingLine (.sending 0) 2).unit .p1).state ≠ .off ∧ (s.unit .p1).queryAttempt = some 2 ∧
      (s.unit .p1).line.isSending = true ∧ (s.unit .p1).line.collisions = 2 ∧
      ((sendingClaim 2).unit .p1).state ≠ .off ∧ ((sendingClaim 2).unit .p1).line.isSending = true ∧
      ((sendingClaim 2).unit .p1).claims = true ∧ ((sendingClaim 2).unit .p1).speaks = true := by decide +kernel

/-- R117, R123: the framing error of a third collision fails a QUERY's first attempt, which the next follows, and is a line
fault for a CLAIM, whose break keeps a low run from being counted. -/
theorem test_third_collision_at_framing_error :
    let s := after (.lineFramingError .p1) (sendingLine (.sending 0) 2)
    let t := after (.lineFramingError .p1) (sendingClaim 2)
    (s.unit .p1).exchange = some (.query 2 (some 0)) ∧ (s.unit .p1).line.lastByteEnd = some s.clock.bit ∧
      (t.unit .p1).state = .discover ∧ (t.unit .p1).restarts = 1 ∧ (t.unit .p1).line.lowStart = none := by decide +kernel

/-- A CLOSED port and one in PRECHARGE, at 5999 mA and below the threshold. -/
theorem witness_SamplesCountEnergy :
    ((drooping 0).portPath .p3).state = .closed ∧ corrected ((drooping 0).mode.trim.get .p3).current 5999 8000 = 5999 ∧
      integrate ((drooping 0).meter .p3).excess (allowance ((drooping 0).reference .p3)) 5999 = 3468 ∧
      (prechargingP1.portPath .p1).state = .precharge ∧ (drooping 0).prot.port.p3.fine < 3600000 := by decide +kernel

/-- R148: trims of -100 mV and +50 mA on P3's readings, at the floor and at the top. -/
theorem test_trimmed_sample :
    let s := (drooping 0).modMode fun m => { m with trim := m.trim.set .p3 ⟨⟨.subtract, 100⟩, ⟨.add, 50⟩⟩ }
    ((after (.sample .p3 20100 2450) s).meter .p3).fine = 50000 ∧ ((after (.sample .p3 100 2450) s).meter .p3).fine = 0 ∧
      (after (.sample .p3 50 2450) s).voltage .p3 = 0 ∧ (after (.sample .p3 30100 7950) s).current .p3 = 8000 ∧
      ((after (.sample .p3 30200 2450) s).meter .p3).fine = 75000 := by decide +kernel

/-- R150: A is 2531 mA at a draw limit of 2250 mA, and 3375 mA in PRECHARGE on a claim of 3000 mA; at A and one above. -/
theorem test_reference_current :
    let low := (drooping 0).modMeter .p3 fun m => { m with excess := 10 }
    ((after (.sample .p3 20000 2531) low).meter .p3).excess = 10 ∧
      ((after (.sample .p3 20000 2532) low).meter .p3).excess = 11 ∧
      ((after (.sample .p3 20000 2499) low).meter .p3).excess = 2 ∧
      ((after (.sample .p1 20000 3376) prechargingP1).meter .p1).excess = 1 := by decide +kernel

theorem witness_SamplesTrip :
    (on.portPath .p1).state = .openPath ∧ corrected (on.mode.trim.get .p3).current 6000 8000 = 6000 ∧
      ((drooping 0).portPath .p3).state ≠ .openPath ∧ (drooping 0).stepOn .p3 = false ∧
      (drooping 0).channelOf .p3 = some .a ∧ ((drooping 0).unit .p3).settleStart = none ∧
      (prechargingP1.portPath .p1).state = .precharge ∧
      (prechargingP1.unit .p1).contract.map Contract.current = some 3000 ∧
      4000 ≤ integrate 532 (allowance ((drooping 0).reference .p3)) 5999 := by decide +kernel

/-- 17999 mV is low, 18000 mV is not; run counts 1 and 9. -/
theorem witness_SamplesFindDroops :
    ((drooping 9).unit .p3).state = .feeding ∧ ((drooping 9).unit .p3).exchange = none ∧
      ((drooping 9).unit .p3).contract = some (terms 2 .fixed 2 20000 2250) ∧ 17999 < 20000 * 90 / 100 ∧
      ((drooping 9).meter .p3).droopRun = 9 ∧ ((drooping 1).meter .p3).droopRun = 1 := by decide +kernel

/-- 8550 mV is in the window of a SETTLE for 9000 mV, 8549 mV is not; with the step in flight. -/
theorem witness_SamplesFindDroops_settle :
    let s := changing .switching (some (.settle 9000 0))
    (s.portPath .p1).state = .closed ∧ (s.unit .p1).exchange = some (.settle 9000 0) ∧
      9000 - 9000 / 20 = 8550 ∧ integrate (s.meter .p1).excess (allowance (s.reference .p1)) 0 < 4000 ∧
      (midPlan s).stepOn .p1 = true ∧ (inFlight s).LastStepOn .p1 oneStep ∧
      6000 = corrected ((midPlan s).mode.trim.get .p1).current 6000 8000 :=
  ⟨by decide +kernel, by decide +kernel, by decide +kernel, by decide +kernel, by decide +kernel, inFlight_last _,
    by decide +kernel⟩

/-- R107: the sample in the window ends the SETTLE and its step is DONE; the one below it leaves both. -/
theorem test_settle_met :
    let s := inFlight (changing .switching (some (.settle 9000 0)))
    ((after (.sample .p1 8550 0) s).unit .p1).state = .feeding ∧
      (after (.sample .p1 8550 0) s).arb.lastOutcome.map LastOutcome.result = some .done ∧
      ((after (.sample .p1 8549 0) s).unit .p1).state = .switching ∧
      (after (.sample .p1 8549 0) s).stepOn .p1 = true := by decide +kernel

/-- P1 closed in CLAIMING after 5 low samples, and in DISCOVER; 17999 mV would be low on a FEEDING port. -/
def lowRun (x : PortState) (e : Option Exchange) : State :=
  (changing x e).modMeter .p1 fun m => { m with droopRun := 5 }

theorem witness_SamplesFindDroops_resets :
    ((lowRun .claiming (aClaim .raise 1)).portPath .p1).state = .closed ∧
      ((lowRun .claiming (aClaim .raise 1)).unit .p1).settleStart = none ∧
      ((lowRun .discover none).unit .p1).state ≠ .feeding ∧
      5999 = corrected ((lowRun .discover none).mode.trim.get .p1).current 5999 8000 ∧
      integrate ((lowRun .discover none).meter .p1).excess (allowance ((lowRun .discover none).reference .p1)) 5999 < 4000 ∧
      (lowRun .claiming (aClaim .raise 1)).delivers .p1 grantFrame (.grant 3 2 3000) := by
  unfold State.delivers; decide +kernel

/-- R154: a sample outside FEEDING and a change of the operating voltage set the run count to 0. -/
theorem test_run_count_resets :
    ((after (.sample .p1 4000 0) (lowRun .claiming (aClaim .raise 1))).meter .p1).droopRun = 0 ∧
      ((after (.sample .p1 4000 0) (lowRun .discover none)).meter .p1).droopRun = 0 ∧
      ((after (.sample .p1 4000 0) (lowRun .switching (some (.settle 9000 0)))).meter .p1).droopRun = 0 ∧
      ((after (.grant .p1 grantFrame) (lowRun .claiming (aClaim .raise 1))).meter .p1).droopRun = 0 := by
  decide +kernel

/-- R61: a trip under a step aborts it. -/
theorem test_trip_aborts :
    let s := after (.sample .p1 9000 6000) (inFlight (changing .switching (some (.settle 9000 0))))
    (s.unit .p1).state = .faulted ∧ s.arb.lastOutcome.map LastOutcome.result = some .partly := by decide +kernel

theorem witness_RailAndBatteryAreWatched :
    on.prot.railAsserted = some false ∧ (asleep on).mode.wakeSet.any (·.railLow) = true ∧
      (after .railLowAssert on).prot.railAsserted.isSome = true ∧ on.path.batteryPresent = some true ∧
      on.path.batteryPresent = some (!false) ∧ (asleep on).mode.wakeSet.any (·.batteryChange) = true := by decide +kernel

/-- Nothing pending; a CHANGE with an empty plan; the first plan of 2.12. -/
theorem witness_TakesServeTheHighestLevel :
    on.takeable = [] ∧ (on.post .change .whole).arb.pending.has ⟨.change, .whole⟩ = true ∧
      ((on.post .change .whole).plan .change).steps = [] ∧ ((on.post .change .whole).plan .change).deferral = false ∧
      (twoSupplies.plan .gain).steps.head? = some ⟨.p1, .new, some 4, some 6, some 20000, 4500, 90000⟩ ∧
      (twoSupplies.unit .p1).state = .standby ∧ (twoSupplies.unit .p1).speaks = true ∧
      twoSupplies.channelFree = true := by decide +kernel

/-- Each way a step starts: a state and the step, which is re-validated there. -/
def starts : List (State × PlanStep) :=
  let idle := withExchange .standby none
  let basic : PlanStep := ⟨.p1, .new, some 0, some 3, some 5000, 900, 4500⟩
  let fin : PlanStep := ⟨.p1, .fin, none, some 3, none, 0, 0⟩
  [(idle, ⟨.p1, .new, some 2, some 3, some 20000, 3000, 60000⟩), (waiting idle 5250, basic), (waiting idle 5251, basic),
    (fedP1 2000 3, fin), (sole (fedP1 2000 3), fin), (sole (basicFeed 900), fin),
    (fedP1 2000 3, ⟨.p1, .lower, some 1, some 3, some 9000, 1500, 13500⟩),
    (fedP1 2000 2, ⟨.p1, .restate, some 1, some 3, some 9000, 2000, 18000⟩), (fedP1 2000 3, raiseStep),
    (basicFeed 900, ⟨.p1, .lower, some 0, some 3, some 5000, 500, 2500⟩),
    (basicFeed 500, ⟨.p1, .raise, some 0, some 3, some 5000, 900, 4500⟩)]

/-- In each of them the Arbiter is at that step, and it is re-validated; a NEW of a port in FEEDING is not. -/
theorem witness_Takes_starts :
    (∀ x ∈ starts, (poised x.2 x.1).AtStep (waitingFor x.2) x.2 ∧ (poised x.2 x.1).revalidates x.2 = true) ∧
      (fedP1 2000 3).revalidates ⟨.p1, .new, some 2, some 3, some 20000, 3000, 60000⟩ = false := by
  have at_step : ∀ x ∈ starts, (poised x.2 x.1).preempted (waitingFor x.2) = false ∧
      (poised x.2 x.1).arb.halted = false ∧ (poised x.2 x.1).revalidates x.2 = true := by decide +kernel
  exact ⟨fun x hx => ⟨⟨rfl, rfl, rfl, (at_step x hx).2.1, State.not_preempts (at_step x hx).1⟩, (at_step x hx).2.2⟩,
    by decide +kernel⟩

/-- What P1 holds after the start: its state, the purpose's attempt, and the step's result, a complete rebalance's included. -/
def started (x : State × PlanStep) : PortState × Option Nat × Option StepResult × Option RebalanceResult :=
  let s := (poised x.2 x.1).act
  ((s.unit .p1).state, (s.unit .p1).claimAttempt.map Prod.fst, s.arb.inService.bind fun r => r.results[0]?,
    s.arb.lastOutcome.map LastOutcome.result)

/-- R52: which starts hand a claim over, which begin a precharge, and which end at once, DONE or FAILED. -/
theorem test_starts :
    starts.map started = [(.claiming, some 1, some .inFlight, none), (.switching, none, some .inFlight, none),
      (.standby, none, none, some .partly), (.standby, none, none, some .done), (.claiming, some 1, some .inFlight, none),
      (.feeding, none, none, some .partly), (.claiming, some 1, some .inFlight, none),
      (.claiming, some 1, some .inFlight, none), (.claiming, some 1, some .inFlight, none),
      (.feeding, none, none, some .done), (.feeding, none, none, some .done)] := by decide +kernel

/-- The Arbiter with every step ended, halted, preempted; a stale step is SKIPPED and the rebalance PARTLY (R51, R56, R58, R60). -/
theorem witness_Takes_goes_on :
    let s := poised raiseStep (fedP1 2000 3)
    let done := s.modArb fun a => { a with inService := a.inService.map fun r => { r with results := [.done], next := 1 } }
    done.act.arb.lastOutcome = some ⟨⟨.gain, .port .p1⟩, .done, 1, 0⟩ ∧
      (s.modArb fun a => { a with halted := true }).act = s.modArb (fun a => { a with halted := true }) ∧
      (∃ e, (s.post .shed .whole).Preempts (waitingFor raiseStep) e) ∧
      (s.post .shed .whole).act.arb.lastOutcome = some ⟨⟨.gain, .port .p1⟩, .abandoned, 0, 0⟩ ∧
      (poised raiseStep (withExchange .standby none)).act.arb.lastOutcome.map LastOutcome.result = some .partly ∧
      (twoSupplies.post .gain (.port .p1)).mayTake = true ∧
      (twoSupplies.post .gain (.port .p1)).NextTaken ⟨.gain, .port .p1⟩ := by
  refine ⟨by decide +kernel, by decide +kernel, State.preempted_iff.mp (by decide +kernel), by decide +kernel,
    by decide +kernel, by decide +kernel, State.takeable_head.mp (by decide +kernel)⟩

/-- The pending set of R47's example, GAIN masked, ranks P2 = 1 and P4 = 0. -/
def example47 : State :=
  let s := ((((withPort on .p4 { PortUnit.reset true with rank := 0 }).post .change (.port .p4)).post .gain
    (.port .p1)).post .change .whole).post .change (.port .p2)
  s.modArb fun a => { a with gainMasked := true }

/-- In DIRECTED GLOBAL is next; without it P4, by its rank; without that P2.  In AUTONOMOUS, the ranks read as 1, P2 is next,
and the masked GAIN never is. -/
theorem witness_Takes_order :
    let ports := example47.modArb fun a => { a with pending := a.pending.put ⟨.change, .whole⟩ false }
    let one := ports.modArb fun a => { a with pending := a.pending.put ⟨.change, .port .p4⟩ false }
    example47.NextTaken ⟨.change, .whole⟩ ∧ ports.NextTaken ⟨.change, .port .p4⟩ ∧ one.NextTaken ⟨.change, .port .p2⟩ ∧
      (ports.modMode fun m => { m with authority := .autonomous }).NextTaken ⟨.change, .port .p2⟩ ∧
      ¬example47.MayServe ⟨.gain, .port .p1⟩ :=
  ⟨State.takeable_head.mp (by decide +kernel), State.takeable_head.mp (by decide +kernel),
    State.takeable_head.mp (by decide +kernel), State.takeable_head.mp (by decide +kernel),
    fun h => absurd (h.2.1 rfl) (by decide +kernel)⟩

/-- 2.12's first plan under a CHANGE of P1, with a GAIN of P3, the CHANGE of P3 and a masked GAIN's level pending. -/
def covering (masked : Bool) : State :=
  after .take ((((twoSupplies.post .change (.port .p1)).post .gain (.port .p3)).post .change (.port .p3)).modArb
    fun a => { a with gainMasked := masked })

/-- R48: the covered list holds the other entries at or below CHANGE, less a masked level's.  R50: a battery change posts CHANGE
GLOBAL, and a second one takes it off the covered list of the take that has covered it, where it stays pending. -/
theorem test_covered :
    let covered (s : State) := (s.arb.inService.map fun r => s.takeOrder.filter r.covered.has).getD []
    let s := covering false
    covered s = [⟨.change, .port .p3⟩, ⟨.gain, .port .p3⟩] ∧ covered (covering true) = [⟨.change, .port .p3⟩] ∧
      covered (s.post .gain (.port .p3)) = [⟨.change, .port .p3⟩] ∧
      (s.post .gain (.port .p3)).arb.pending.has ⟨.gain, .port .p3⟩ = true ∧
      let t := after .take ((twoSupplies.post .loss (.port .p1)).post .change .whole)
      covered t = [⟨.change, .whole⟩] ∧ covered (after (.batteryChange false) t) = [] ∧
        (after (.batteryChange false) t).arb.pending.has ⟨.change, .whole⟩ = true ∧
        (after (.batteryChange false) t).arb.inService.map InService.taken = some ⟨.loss, .port .p1⟩ := by decide +kernel

/-- R41, R57: an empty plan is NO_CHANGE. -/
theorem test_take :
    (after .take (on.post .change .whole)).arb.lastOutcome = some ⟨⟨.change, .whole⟩, .noChange, 0, 0⟩ ∧
      ((after .take (twoSupplies.post .gain (.port .p1))).unit .p1).exchange =
        some (.claim .new 4 4500 20000 (some 6) 1 0) := by decide +kernel

/-- 2.12, "A denial cap below the minimum claim": P4's figure is its cap of 1500 mW, which makes no target, and P1's row is
that of a port without allocation; a port that takes no part has an empty row. -/
theorem test_plan_rows :
    let row := (denialCase.plan .change).rows.get .p4
    row = ⟨.takesPart, some 1500, some 2, 0, 0, 0, .step .fin⟩ ∧
      (denialCase.plan .change).rows.get .p1 = ⟨.takesPart, some 18000, some 1, 0, 0, 0, .noStep⟩ ∧
      (twoSupplies.plan .gain).rows.get .p2 = ⟨.none, none, none, 0, 0, 0, .noStep⟩ := by decide +kernel

theorem witness_PlansStayWithinPowerAndSlots :
    PortId.all.all (fun p => decide (((twoFeeds.plan .change).rows.get p).disposition ≠ .kept)) = true ∧
      twoFeeds.sharedPower = 90000 ∧ twoFeeds.slots = 2 := by decide +kernel

/-- A claim current of 90 mA is below the minimum claim, one of 100 mA is not. -/
theorem witness_ClaimsStayWithinTheAllocation :
    let b : OfferFigures := ⟨1, 20000, 2400, 48000⟩
    0 < b.vop ∧ min b.ider (1999 * 1000 / b.vop / 10 * 10) = 90 ∧ min b.ider (2000 * 1000 / b.vop / 10 * 10) = 100 ∧
      let u := { port .standby 1 [.range 5000 21000 60000] with derate := 80 }
      u.best = some b ∧ 48000 ≤ b.usable ∧
        (u.table.entries[1]?).map Entry.kind = some .range ∧
        (u.table.entries[1]?).bind Entry.clampedPower = some 60000 := by decide +kernel

end Sys2Proof.Tests
end

section
/-! SUPPORT. What the shared operations leave standing: the lines sensed, the clock, Mode Control, the four energy counters and
their snapshot.  No work of an instant of the ports, the paths and the Arbiter writes any of it, a sample's count of energy
apart; where time passes, a line is read or the part wakes, the counters and their snapshot stand (R146, R158 to R160). -/

namespace Sys2Proof.Machine

/-! ### What stands, and the plain updates -/

/-- A meter's energy counters (R146). -/
def Meter.energy (m : Meter) : EnergyPair := ⟨m.whole, m.fine⟩

theorem Meter.energy_eq_iff {m n : Meter} : m.energy = n.energy ↔ m.whole = n.whole ∧ m.fine = n.fine := by
  simp [Meter.energy]

/-- The energy counters of the four ports, and their snapshot (R146, R160). -/
structure Counters where
  snapshot : Option Snapshot
  energy : PerPort EnergyPair

/-- What the ports, the paths and the Arbiter read and do not write. -/
structure Standing where
  pins : Pins
  clock : Clock
  mode : ModeControl
  counters : Counters

/-- What stands in a state. -/
def State.standing (s : State) : Standing :=
  ⟨s.pins, s.clock, s.mode, s.prot.snapshot, s.prot.port.map Meter.energy⟩

section
variable {s t : State}

theorem State.pins_of_standing (h : s.standing = t.standing) : s.pins = t.pins := congrArg Standing.pins h

theorem State.clock_of_standing (h : s.standing = t.standing) : s.clock = t.clock := congrArg Standing.clock h

theorem State.snapshot_of_counters (h : s.standing.counters = t.standing.counters) :
    s.prot.snapshot = t.prot.snapshot := congrArg Counters.snapshot h

theorem State.energy_of_counters (h : s.standing.counters = t.standing.counters) (p : PortId) :
    (s.meter p).energy = (t.meter p).energy := by
  have all := congrArg (fun c => c.energy.get p) h
  simpa [State.standing, State.meter] using all

/-- The measured voltage is read from what stands. -/
theorem State.voltage_of_standing (h : s.standing = t.standing) (p : PortId) : s.voltage p = t.voltage p := by
  have pins := s.pins_of_standing h
  have mode : s.mode = t.mode := congrArg Standing.mode h
  simp [State.voltage, pins, mode]

/-- The measured current is read from what stands. -/
theorem State.current_of_standing (h : s.standing = t.standing) (p : PortId) : s.current p = t.current p := by
  have pins := s.pins_of_standing h
  have mode : s.mode = t.mode := congrArg Standing.mode h
  simp [State.current, pins, mode]

end

@[simp] theorem standing_ite (c : Prop) [Decidable c] (s t : State) :
    (if c then s else t).standing = if c then s.standing else t.standing := apply_ite _ _ _ _

@[simp] theorem Standing.counters_ite (c : Prop) [Decidable c] (x y : Standing) :
    (if c then x else y).counters = if c then x.counters else y.counters := apply_ite _ _ _ _

theorem standing_foldl {α : Type} {f : State → α → State} (h : ∀ s x, (f s x).standing = s.standing) (l : List α)
    (s : State) : (l.foldl f s).standing = s.standing := by
  induction l generalizing s with
  | nil => rfl
  | cons x rest ih => rw [List.foldl_cons, ih, h]

@[simp] theorem State.modArb_standing (s : State) (f : Arbiter → Arbiter) : (s.modArb f).standing = s.standing := rfl
@[simp] theorem State.modUnit_standing (s : State) (p : PortId) (f : PortUnit → PortUnit) :
    (s.modUnit p f).standing = s.standing := rfl
@[simp] theorem State.modLine_standing (s : State) (p : PortId) (f : LineInterface → LineInterface) :
    (s.modLine p f).standing = s.standing := rfl
@[simp] theorem State.modPath_standing (s : State) (f : PathController → PathController) :
    (s.modPath f).standing = s.standing := rfl
@[simp] theorem State.modPortPath_standing (s : State) (p : PortId) (f : PortPath → PortPath) :
    (s.modPortPath p f).standing = s.standing := rfl
@[simp] theorem State.modHost_standing (s : State) (f : HostLink → HostLink) : (s.modHost f).standing = s.standing := rfl
@[simp] theorem State.refresh_standing (s : State) : s.refresh.standing = s.standing := rfl
@[simp] theorem State.post_standing (s : State) (l : Level) (o : Origin) : (s.post l o).standing = s.standing := rfl
@[simp] theorem State.setFlag_standing (s : State) (f : Flag) : (s.setFlag f).standing = s.standing := rfl

@[simp] theorem State.modChan_standing (s : State) (c : ChannelId) (f : Channel → Channel) :
    (s.modChan c f).standing = s.standing := by cases c <;> rfl

/-- A write of a meter that keeps its W and F. -/
@[simp] theorem State.modMeter_standing (s : State) (p : PortId) {f : Meter → Meter}
    (h : ∀ m, (f m).whole = m.whole ∧ (f m).fine = m.fine) : (s.modMeter p f).standing = s.standing := by
  cases p <;> simp [State.standing, PerPort.map, PerPort.set, PerPort.get, Meter.energy, h]

/-- A write of the unit's rail level. -/
@[simp] theorem State.modProt_standing (s : State) {f : Protection → Protection}
    (h : ∀ x, (f x).snapshot = x.snapshot ∧ (f x).port = x.port) : (s.modProt f).standing = s.standing := by
  simp [State.standing, h]

@[simp] theorem State.modPins_counters (s : State) (f : Pins → Pins) :
    (s.modPins f).standing.counters = s.standing.counters := rfl
@[simp] theorem State.modMode_counters (s : State) (f : ModeControl → ModeControl) :
    (s.modMode f).standing.counters = s.standing.counters := rfl
@[simp] theorem State.pass_counters (s : State) (us : Nat) : (s.pass us).standing.counters = s.standing.counters := rfl
@[simp] theorem State.waitMs_counters (s : State) (start : Time) (ms : Nat) :
    (s.waitMs start ms).standing.counters = s.standing.counters := by rw [State.waitMs_eq]; rfl
@[simp] theorem State.waitUs_counters (s : State) (start us : Nat) :
    (s.waitUs start us).standing.counters = s.standing.counters := by rw [State.waitUs_eq]; rfl

/-! ### Lines, paths and draw limits -/

@[simp] theorem State.sendBreak_standing (s : State) (p : PortId) : (s.sendBreak p).standing = s.standing := by
  simp [State.sendBreak]

@[simp] theorem State.setLineLow_counters (s : State) (p : PortId) (low : Bool) :
    (s.setLineLow p low).standing.counters = s.standing.counters := rfl

@[simp] theorem State.lineHigh_counters (s : State) (p : PortId) :
    (s.lineHigh p).standing.counters = s.standing.counters := by
  simp [State.lineHigh]

@[simp] theorem State.modDraw_standing (s : State) (p : PortId) (f : Nat → Nat) :
    (s.modDraw p f).standing = s.standing := by
  obtain ⟨a, b, drawn⟩ := s.modDraw_eq p f
  rw [drawn]; rfl

@[simp] theorem State.raise_standing (s : State) : s.raise.standing = s.standing := by
  obtain ⟨a, b, -, -, raised⟩ := s.raise_eq
  rw [raised]; rfl

@[simp] theorem State.postCut_standing (s : State) (e : Option PendingEntry) : (s.postCut e).standing = s.standing := by
  cases e <;> simp [State.postCut]

@[simp] theorem State.openPath_standing (s : State) (p : PortId) : (s.openPath p).standing = s.standing := by
  obtain ⟨a, b, opened⟩ := s.openPath_eq p
  rw [opened]
  exact s.modMeter_standing p (f := fun m => { m with excess := 0, droopRun := 0 }) fun _ => ⟨rfl, rfl⟩

@[simp] theorem State.writeOfferCurrent_standing (s : State) (p : PortId) :
    (s.writeOfferCurrent p).standing = s.standing := by
  unfold State.writeOfferCurrent; split <;> simp

@[simp] theorem State.dropCeiling_standing (s : State) (p : PortId) : (s.dropCeiling p).standing = s.standing := rfl

@[simp] theorem State.boundDraw_standing (s : State) (p : PortId) : (s.boundDraw p).standing = s.standing := by
  unfold State.boundDraw; split <;> simp

@[simp] theorem State.pathTerms_standing (s : State) (p : PortId) (rating : Bool) :
    (s.pathTerms p rating).standing = s.standing := by
  simp [State.pathTerms]

@[simp] theorem State.beginPrecharge_standing (s : State) (p : PortId) (c : ChannelId) :
    (s.beginPrecharge p c).standing = s.standing := by
  simp [State.beginPrecharge]

@[simp] theorem State.closePath_standing (s : State) (p : PortId) : (s.closePath p).standing = s.standing := by
  unfold State.closePath; dsimp only; split <;> simp

@[simp] theorem State.scale_standing (s : State) : s.scale.standing = s.standing := by
  simp [State.scale]

/-! ### Exchanges, contracts and discovery -/

@[simp] theorem State.setPortState_standing (s : State) (p : PortId) (x : PortState) :
    (s.setPortState p x).standing = s.standing := rfl

@[simp] theorem State.giveUp_standing (s : State) (p : PortId) : (s.giveUp p).standing = s.standing := by
  obtain ⟨line, given⟩ := s.giveUp_eq p
  rw [given]; rfl

@[simp] theorem State.sendQuery_standing (s : State) (p : PortId) (n : Nat) : (s.sendQuery p n).standing = s.standing := rfl

@[simp] theorem State.sendClaim_standing (s : State) (p : PortId) (purpose : Purpose) (index current vop : Nat)
    (gen : Option Gen) (attempt : Nat) :
    (s.sendClaim p purpose index current vop gen attempt).standing = s.standing := rfl

@[simp] theorem State.putContract_standing (s : State) (p : PortId) (k : Contract) :
    (s.putContract p k).standing = s.standing := by
  simp [State.putContract]

@[simp] theorem State.modContract_standing (s : State) (p : PortId) (f : Contract → Contract) :
    (s.modContract p f).standing = s.standing := rfl

@[simp] theorem State.endContract_standing (s : State) (p : PortId) : (s.endContract p).standing = s.standing := by
  simp [State.endContract]

@[simp] theorem State.demote_standing (s : State) (p : PortId) : (s.demote p).standing = s.standing := by
  simp [State.demote]

@[simp] theorem State.endOrDemote_standing (s : State) (p : PortId) : (s.endOrDemote p).standing = s.standing := by
  simp [State.endOrDemote]

@[simp] theorem State.returnToBasic_standing (s : State) (p : PortId) : (s.returnToBasic p).standing = s.standing := by
  unfold State.returnToBasic; split <;> simp

@[simp] theorem State.loseTerms_standing (s : State) (p : PortId) : (s.loseTerms p).standing = s.standing := by
  simp [State.loseTerms]

@[simp] theorem State.leaveDiscover_standing (s : State) (p : PortId) : (s.leaveDiscover p).standing = s.standing := by
  simp [State.leaveDiscover]

@[simp] theorem State.endDiscovery_standing (s : State) (p : PortId) : (s.endDiscovery p).standing = s.standing := by
  simp [State.endDiscovery]

@[simp] theorem State.enterDiscover_standing (s : State) (p : PortId) : (s.enterDiscover p).standing = s.standing := by
  simp [State.enterDiscover]

@[simp] theorem State.endQuery_standing (s : State) (p : PortId) : (s.endQuery p).standing = s.standing := by
  simp [State.endQuery]

@[simp] theorem State.queryAttemptEnds_standing (s : State) (p : PortId) (n : Nat) :
    (s.queryAttemptEnds p n).standing = s.standing := by
  simp [State.queryAttemptEnds]

@[simp] theorem State.intoEmpty_standing (s : State) (p : PortId) : (s.intoEmpty p).standing = s.standing := rfl

@[simp] theorem State.intoOff_standing (s : State) (p : PortId) : (s.intoOff p).standing = s.standing := rfl

@[simp] theorem State.outOfOff_standing (s : State) (p : PortId) : (s.outOfOff p).standing = s.standing := rfl

@[simp] theorem State.invalidCut_standing (s : State) (p : PortId) : (s.invalidCut p).standing = s.standing := by
  simp [State.invalidCut]

@[simp] theorem State.testContract_standing (s : State) (p : PortId) (k : Contract) :
    (s.testContract p k).standing = s.standing := by
  unfold State.testContract
  split
  · simp
  all_goals dsimp only; split <;> simp

@[simp] theorem State.storeOffers_standing (s : State) (p : PortId) (gen : Gen) (kind : SupplyKind)
    (menu : List SentOffer) : (s.storeOffers p gen kind menu).standing = s.standing := by
  unfold State.storeOffers; dsimp only; split <;> simp

@[simp] theorem State.wake_counters (s : State) (c : WakeCondition) :
    (s.wake c).standing.counters = s.standing.counters := by
  simp [State.wake]

/-! ### The Arbiter at work -/

@[simp] theorem State.modService_standing (s : State) (f : InService → InService) :
    (s.modService f).standing = s.standing := rfl

@[simp] theorem State.endStep_standing (s : State) (x : StepResult) : (s.endStep x).standing = s.standing := rfl

@[simp] theorem State.writeCap_standing (s : State) (p : PortId) : (s.writeCap p).standing = s.standing := rfl

@[simp] theorem State.closeStep_standing (s : State) (p : PortId) (x : StepResult) :
    (s.closeStep p x).standing = s.standing := by
  cases x <;> simp [State.closeStep]

@[simp] theorem State.writeOutcome_standing (s : State) (r : InService) (x : RebalanceResult) :
    (s.writeOutcome r x).standing = s.standing := rfl

@[simp] theorem State.flagDone_standing (s : State) (r : InService) : (s.flagDone r).standing = s.standing :=
  standing_foldl (by simp) _ s

@[simp] theorem State.recordOutcome_standing (s : State) (r : InService) (x : RebalanceResult) :
    (s.recordOutcome r x).standing = s.standing := by
  simp [State.recordOutcome]

@[simp] theorem State.complete_standing (s : State) (r : InService) : (s.complete r).standing = s.standing := by
  simp [State.complete]

@[simp] theorem State.abandon_standing (s : State) (r : InService) : (s.abandon r).standing = s.standing := by
  simp [State.abandon]

theorem State.acceptNew_standing {s t : State} {p : PortId} (h : s.acceptNew p = some t) : t.standing = s.standing := by
  unfold State.acceptNew at h
  split at h <;> cases h
  simp

@[simp] theorem State.failNew_standing (s : State) (p : PortId) : (s.failNew p).standing = s.standing := by
  simp [State.failNew]

@[simp] theorem State.startNew_standing (s : State) (x : PlanStep) : (s.startNew x).1.standing = s.standing := by
  unfold State.startNew
  dsimp only
  split
  · rfl
  · split
    · rename_i t accepted
      simp [State.acceptNew_standing accepted]
    · simp

@[simp] theorem State.startChange_standing (s : State) (x : PlanStep) (purpose : Purpose) :
    (s.startChange x purpose).1.standing = s.standing := by
  unfold State.startChange; dsimp only; split <;> simp

@[simp] theorem State.cutForLower_standing (s : State) (x : PlanStep) : (s.cutForLower x).standing = s.standing := by
  simp [State.cutForLower]

@[simp] theorem State.startStep_standing (s : State) (x : PlanStep) : (s.startStep x).1.standing = s.standing := by
  unfold State.startStep; dsimp only; split <;> simp [State.startEnd]

@[simp] theorem State.proceed_standing (fuel : Nat) (s : State) : (State.proceed fuel s).standing = s.standing := by
  induction fuel generalizing s with
  | zero => rfl
  | succ fuel ih =>
    unfold State.proceed
    split
    · rfl
    · split
      · rfl
      · split
        · simp
        · next x _ =>
          have started := s.startStep_standing x
          generalize s.startStep x = start at started ⊢
          obtain ⟨t, _ | result⟩ := start <;> simp_all

@[simp] theorem State.act_standing (s : State) : s.act.standing = s.standing := by
  unfold State.act; split <;> simp

@[simp] theorem State.stepEnds_standing (s : State) (p : PortId) (x : StepResult) :
    (s.stepEnds p x).standing = s.standing := by
  simp [State.stepEnds]

theorem State.endingStep_counters (s : State) (p : PortId) (x : StepResult) {f : State → State}
    (h : ∀ u, (f u).standing.counters = u.standing.counters) :
    (s.endingStep p x f).standing.counters = s.standing.counters := by
  simp [State.endingStep, h]

@[simp] theorem State.takeEntry_standing (s : State) (e : PendingEntry) : (s.takeEntry e).standing = s.standing := by
  simp [State.takeEntry]

@[simp] theorem State.countRestart_standing (s : State) (p : PortId) : (s.countRestart p).standing = s.standing := by
  simp [State.countRestart]

@[simp] theorem State.lineFault_standing (s : State) (p : PortId) (own : Bool) :
    (s.lineFault p own).standing = s.standing := by
  simp [State.lineFault]

end Sys2Proof.Machine
end

section
/-! SUPPORT. What each command does to the four energy counters and their snapshot: all but SNAPSHOT, CLEAR_ENERGY, SAMPLE and
the three hard resets leave them, and a CLEAR_ENERGY or a SAMPLE leaves the snapshot (R158 to R160). -/

namespace Sys2Proof.Machine

/-! ### A request's service -/

@[simp] theorem State.answer_state (s : State) (x : Status) : (s.answer x).state = s := rfl

@[simp] theorem Answer.reply_standing (a : Answer) (kind : Option Byte) : (a.reply kind).standing = a.state.standing := rfl

theorem State.takeUp_counters {s u : State} {e : QueueEntry} {checked : Bool} (h : s.takeUp e checked = some u) :
    u.standing.counters = s.standing.counters := by
  unfold State.takeUp at h
  split at h
  · split at h <;> split at h <;> cases h <;> rfl
  · cases h

/-- A request is left unserved, or its work is done on a state with the counters as they stood. -/
theorem State.serve_cases (s : State) (r : Request) (payload : List Byte) (work : State → Answer) :
    s.serve r payload work = s ∨ ∃ u, u.standing.counters = s.standing.counters ∧
      s.serve r payload work = (work u).reply (some r.code) := by
  unfold State.serve
  rcases taken : s.takeUp (goodEntry r payload) true with _ | u
  · exact .inl rfl
  · exact .inr ⟨u, takeUp_counters taken, rfl⟩

theorem State.serve_counters (s : State) (r : Request) (payload : List Byte) {work : State → Answer}
    (h : ∀ u, (work u).state.standing.counters = u.standing.counters) :
    (s.serve r payload work).standing.counters = s.standing.counters := by
  rcases s.serve_cases r payload work with unserved | ⟨u, kept, served⟩
  · rw [unserved]
  · rw [served, Answer.reply_standing, h, kept]

/-- A request that names a port is refused with BAD_PORT, or its work is done on that port. -/
theorem State.onPort_cases (s : State) (b : Byte) (work : State → PortId → Answer) :
    s.onPort b work = s.answer .badPort ∨ ∃ p, s.onPort b work = work s p := by
  unfold State.onPort
  split
  · exact .inr ⟨_, rfl⟩
  · exact .inl rfl

theorem State.onPort_counters (s : State) (b : Byte) {work : State → PortId → Answer}
    (h : ∀ p, (work s p).state.standing.counters = s.standing.counters) :
    (s.onPort b work).state.standing.counters = s.standing.counters := by
  rcases s.onPort_cases b work with refused | ⟨p, done⟩
  · rw [refused, State.answer_state]
  · rw [done, h]

theorem State.inDirected_counters (s : State) {work : State → Answer}
    (h : (work s).state.standing.counters = s.standing.counters) :
    (s.inDirected work).state.standing.counters = s.standing.counters := by
  unfold State.inDirected
  split
  · exact h
  · rfl

/-- Unlocking captures keeps W and F (R156). -/
@[simp] theorem State.clearFlags_counters (s : State) (listed : FlagSet) :
    (s.clearFlags listed).state.standing.counters = s.standing.counters := by
  have unlocked (c : Prop) [Decidable c] (m : Meter) : (if c then m.unlock else m).energy = m.energy := by
    split <;> rfl
  simp [State.clearFlags, State.standing, PerPort.map, unlocked]

/-! ### Policy requests -/

@[simp] theorem State.writeDemand_counters (s : State) (n : Nat) :
    (s.writeDemand n).standing.counters = s.standing.counters := rfl

@[simp] theorem State.writeLimit_counters (s : State) (n : Nat) :
    (s.writeLimit n).standing.counters = s.standing.counters := by
  unfold State.writeLimit
  dsimp only
  split
  · simp
  · split <;> simp

@[simp] theorem State.takeControl_counters (s : State) (demand limit : Nat) :
    (s.takeControl demand limit).state.standing.counters = s.standing.counters := by
  simp [State.takeControl]

@[simp] theorem State.setDemand_counters (s : State) (n : Nat) :
    (s.setDemand n).state.standing.counters = s.standing.counters := by
  simp [State.setDemand]

@[simp] theorem State.setLimit_counters (s : State) (n : Nat) :
    (s.setLimit n).state.standing.counters = s.standing.counters := by
  simp [State.setLimit]

@[simp] theorem State.unhalt_standing (s : State) : s.unhalt.standing = s.standing := by
  simp [State.unhalt]

@[simp] theorem State.enterAutonomous_counters (s : State) :
    s.enterAutonomous.standing.counters = s.standing.counters := by
  simp [State.enterAutonomous]

@[simp] theorem State.releaseControl_counters (s : State) :
    s.releaseControl.state.standing.counters = s.standing.counters := by
  unfold State.releaseControl; split <;> simp

@[simp] theorem State.silenceExpires_counters (s : State) :
    s.silenceExpires.standing.counters = s.standing.counters := by
  unfold State.silenceExpires; split <;> simp

@[simp] theorem State.sleep_counters (s : State) (wake : Byte) :
    (s.sleep wake).state.standing.counters = s.standing.counters := by
  unfold State.sleep
  split
  · rfl
  · split
    · rfl
    · split <;> rfl

/-! ### Port requests -/

@[simp] theorem State.derateMoved_standing (s : State) (p : PortId) (old : Nat) :
    (s.derateMoved p old).standing = s.standing := by
  simp [State.derateMoved]

@[simp] theorem State.writePort_standing (s : State) (p : PortId) (rank derate : Nat) (mode : PortMode) :
    (s.writePort p rank derate mode).state.standing = s.standing := by
  simp [State.writePort]

@[simp] theorem State.setPort_standing (s : State) (p : PortId) (rank derate : Nat) (mode : Byte) :
    (s.setPort p rank derate mode).state.standing = s.standing := by
  unfold State.setPort
  split
  · rfl
  · split
    · rfl
    · split <;> simp

@[simp] theorem State.enablePort_standing (s : State) (p : PortId) : (s.enablePort p).state.standing = s.standing := by
  unfold State.enablePort; split <;> simp

@[simp] theorem State.stopPort_standing (s : State) (p : PortId) : (s.stopPort p).standing = s.standing := by
  simp [State.stopPort]

@[simp] theorem State.restartPort_standing (s : State) (p : PortId) : (s.restartPort p).standing = s.standing := by
  simp [State.restartPort]

theorem State.takePort_counters (s : State) (p : PortId) {work : State → State}
    (h : ∀ u, (work u).standing.counters = u.standing.counters) :
    (s.takePort p work).state.standing.counters = s.standing.counters := by
  unfold State.takePort
  split
  · rfl
  · split
    · rfl
    · exact s.endingStep_counters p .aborted h

/-! ### The host link and the resets -/

@[simp] theorem State.offerEntry_counters (s : State) (e : QueueEntry) (checked : Bool) :
    (s.offerEntry e checked).standing.counters = s.standing.counters := by
  simp [State.offerEntry, State.restartSilence]

@[simp] theorem State.requestBegins_counters (s : State) :
    s.requestBegins.standing.counters = s.standing.counters := by
  simp [State.requestBegins]

@[simp] theorem State.bytesTaken_counters (s : State) (bytes : List Byte) :
    (s.bytesTaken bytes).standing.counters = s.standing.counters := by
  unfold State.bytesTaken; dsimp only; split <;> simp

@[simp] theorem State.hostStart_counters (s : State) : s.hostStart.standing.counters = s.standing.counters := by
  unfold State.hostStart
  split
  · split <;> simp
  · rfl

@[simp] theorem State.frameComplete_counters (s : State) (bytes : List Byte) :
    (s.frameComplete bytes).standing.counters = s.standing.counters := by
  simp [State.frameComplete]

@[simp] theorem State.dropRequest_standing (s : State) : s.dropRequest.standing = s.standing := rfl

@[simp] theorem State.serveError_counters (s : State) : s.serveError.standing.counters = s.standing.counters := by
  unfold State.serveError
  split
  · split
    · rename_i taken
      rw [Answer.reply_standing, State.answer_state, takeUp_counters taken]
    · rfl
  · rfl

@[simp] theorem State.softPort_standing (s : State) (p : PortId) : (s.softPort p).standing = s.standing := by
  unfold State.softPort; dsimp only; split <;> simp

@[simp] theorem State.softArbiter_standing (s : State) : s.softArbiter.standing = s.standing := by
  unfold State.softArbiter; split <;> simp

@[simp] theorem State.softMode_counters (s : State) : s.softMode.standing.counters = s.standing.counters := rfl

@[simp] theorem State.softReset_counters (s : State) : s.softReset.standing.counters = s.standing.counters := by
  have ports := standing_foldl State.softPort_standing PortId.all s.softMode.softArbiter
  simp [State.softReset, State.softHost, ports]

@[simp] theorem State.replyEnds_counters (s : State) : s.replyEnds.standing.counters = s.standing.counters := by
  unfold State.replyEnds; split <;> simp

@[simp] theorem State.releaseFrom_counters (s : State) (k : HardReset) (b : Board) :
    (s.releaseFrom k b).standing.counters = s.standing.counters := by
  unfold State.releaseFrom
  split
  · dsimp only; split <;> rfl
  · rfl

@[simp] theorem State.dipCapture_standing (s : State) (p : PortId) : (s.dipCapture p).standing = s.standing := by
  simp [State.dipCapture]

@[simp] theorem State.railAsserts_standing (s : State) : s.railAsserts.standing = s.standing := by
  simp [State.railAsserts, standing_foldl State.dipCapture_standing]

@[simp] theorem State.endStarting_counters (s : State) : s.endStarting.standing.counters = s.standing.counters := by
  unfold State.endStarting
  dsimp only
  split <;> simp [standing_foldl State.outOfOff_standing]

/-! ### Presence and the port's own timers -/

@[simp] theorem State.presenceAsserts_counters (s : State) (p : PortId) :
    (s.presenceAsserts p).standing.counters = s.standing.counters := by
  simp [State.presenceAsserts, State.seePresence, State.setPresencePin]

@[simp] theorem State.presenceGoes_counters (s : State) (p : PortId) :
    (s.presenceGoes p).standing.counters = s.standing.counters := rfl

@[simp] theorem State.waitPresence_counters (s : State) (p : PortId) (ms : Nat) :
    (s.waitPresence p ms).standing.counters = s.standing.counters := by
  unfold State.waitPresence; split <;> simp

@[simp] theorem State.debounceEnds_counters (s : State) (p : PortId) :
    (s.debounceEnds p).standing.counters = s.standing.counters := by
  simp [State.debounceEnds]

@[simp] theorem State.detachPort_counters (s : State) (p : PortId) :
    (s.detachPort p).standing.counters = s.standing.counters := by
  simp [State.detachPort]

@[simp] theorem State.detaches_counters (s : State) (p : PortId) :
    (s.detaches p).standing.counters = s.standing.counters := by
  unfold State.detaches
  split
  · rw [State.endingStep_counters _ p .aborted (State.detachPort_counters · p)]
    simp
  · rfl

@[simp] theorem State.discoveryFails_counters (s : State) (p : PortId) :
    (s.discoveryFails p).standing.counters = s.standing.counters := by
  unfold State.discoveryFails; dsimp only; split <;> simp

@[simp] theorem State.coolDownEnds_counters (s : State) (p : PortId) :
    (s.coolDownEnds p).standing.counters = s.standing.counters := by
  unfold State.coolDownEnds; split <;> simp

@[simp] theorem State.cleanRunEnds_counters (s : State) (p : PortId) :
    (s.cleanRunEnds p).standing.counters = s.standing.counters := by
  unfold State.cleanRunEnds; split <;> simp

/-! ### Frames of the dialogue lines -/

@[simp] theorem State.breakReleases_counters (s : State) (p : PortId) :
    (s.breakReleases p).standing.counters = s.standing.counters := by
  unfold State.breakReleases
  split
  · dsimp only; split <;> simp
  · rfl

@[simp] theorem State.lineFree_counters (s : State) (p : PortId) :
    (s.lineFree p).standing.counters = s.standing.counters := by
  simp [State.lineFree]

theorem State.receive_counters (s : State) (p : PortId) (frame : List Byte) {act : State → Message → State}
    (h : ∀ u m, (act u m).standing.counters = u.standing.counters) :
    (s.receive p frame act).standing.counters = s.standing.counters := by
  unfold State.receive
  split
  · rfl
  · dsimp only; split <;> simp [State.frameTaken, h]

@[simp] theorem State.staleClaim_standing (s : State) (p : PortId) : (s.staleClaim p).standing = s.standing := by
  simp [State.staleClaim]

@[simp] theorem State.offersArrive_counters (s : State) (p : PortId) (gen : Gen) (kind : SupplyKind)
    (menu : List SentOffer) : (s.offersArrive p gen kind menu).standing.counters = s.standing.counters := by
  unfold State.offersArrive
  split
  · simp
  · rw [State.endingStep_counters _ p .failed fun u => by simp]
    simp
  · simp

@[simp] theorem State.grantNew_standing (s : State) (p : PortId) (index current vop : Nat) (gen : Option Gen) :
    (s.grantNew p index current vop gen).standing = s.standing := by
  simp [State.grantNew]

@[simp] theorem State.grantChange_standing (s : State) (p : PortId) (k : Contract) (c : PendingChange) :
    (s.grantChange p k c).standing = s.standing := by
  unfold State.grantChange; dsimp only; split <;> simp

@[simp] theorem State.grantReturn_standing (s : State) (p : PortId) : (s.grantReturn p).standing = s.standing := by
  simp [State.grantReturn]

@[simp] theorem State.grantArrives_standing (s : State) (p : PortId) (gen : Gen) (index current : Nat) :
    (s.grantArrives p gen index current).standing = s.standing := by
  unfold State.grantArrives
  split
  · split
    · dsimp only; split <;> simp [State.claimGranted]
    · rfl
  · rfl

@[simp] theorem State.failChange_standing (s : State) (p : PortId) : (s.failChange p).standing = s.standing := by
  simp [State.failChange]

@[simp] theorem State.denied_standing (s : State) (p : PortId) (purpose : Purpose) :
    (s.denied p purpose).standing = s.standing := by
  cases purpose <;> simp [State.denied]

@[simp] theorem State.denyArrives_standing (s : State) (p : PortId) (gen : Gen) (reason : DenyReason) :
    (s.denyArrives p gen reason).standing = s.standing := by
  unfold State.denyArrives; split <;> simp [State.startResync]

@[simp] theorem State.readyNew_standing (s : State) (p : PortId) : (s.readyNew p).standing = s.standing := by
  unfold State.readyNew
  split
  · rename_i accepted
    exact State.acceptNew_standing accepted
  · simp

@[simp] theorem State.readyArrives_standing (s : State) (p : PortId) (gen : Gen) :
    (s.readyArrives p gen).standing = s.standing := by
  unfold State.readyArrives; split <;> simp [State.readyChange]

@[simp] theorem State.lowerKept_standing (s : State) (p : PortId) (cable : Nat) :
    (s.lowerKept p cable).standing = s.standing := by
  unfold State.lowerKept; split <;> simp

@[simp] theorem State.ratingArrives_standing (s : State) (p : PortId) (current voltage : Nat) :
    (s.ratingArrives p current voltage).standing = s.standing := by
  unfold State.ratingArrives; split <;> simp

@[simp] theorem State.acts_counters (s : State) (p : PortId) (m : Message) :
    (s.acts p m).standing.counters = s.standing.counters := by
  cases m <;> simp [State.acts]

@[simp] theorem State.syncTaken_counters (s : State) (p : PortId) :
    (s.syncTaken p).standing.counters = s.standing.counters := by
  unfold State.syncTaken
  split
  · rfl
  · split
    · simp [State.frameBegins]
    · unfold State.byteJoins
      dsimp only
      split
      · exact s.receive_counters p _ (State.acts_counters · p)
      · simp

/-! ### Line signalling -/

@[simp] theorem State.frameFails_standing (s : State) (p : PortId) : (s.frameFails p).standing = s.standing := by
  unfold State.frameFails; split <;> simp

@[simp] theorem State.collides_counters (s : State) (p : PortId) :
    (s.collides p).standing.counters = s.standing.counters := by
  simp [State.collides]

@[simp] theorem State.gapPasses_counters (s : State) (p : PortId) :
    (s.gapPasses p).standing.counters = s.standing.counters := by
  unfold State.gapPasses; split <;> simp

@[simp] theorem State.framingError_counters (s : State) (p : PortId) :
    (s.framingError p).standing.counters = s.standing.counters := by
  simp [State.framingError]

@[simp] theorem State.frameStarts_counters (s : State) (p : PortId) :
    (s.frameStarts p).standing.counters = s.standing.counters := by
  simp [State.frameStarts]

@[simp] theorem State.beginSending_counters (s : State) (p : PortId) (us : Nat) :
    (s.beginSending p us).standing.counters = s.standing.counters := by
  simp [State.beginSending]

@[simp] theorem State.frameGone_counters (s : State) (p : PortId) :
    (s.frameGone p).standing.counters = s.standing.counters := by
  unfold State.frameGone; split <;> simp

@[simp] theorem State.breakReported_standing (s : State) (p : PortId) : (s.breakReported p).standing = s.standing := by
  unfold State.breakReported
  dsimp only
  split
  · split <;> simp
  · rfl

@[simp] theorem State.breakComes_counters (s : State) (p : PortId) :
    (s.breakComes p).standing.counters = s.standing.counters := by
  simp [State.breakComes, State.breakDetected]

/-! ### Waits that run out -/

@[simp] theorem State.queryExpires_counters (s : State) (p : PortId) :
    (s.queryExpires p).standing.counters = s.standing.counters := by
  unfold State.queryExpires; dsimp only; split <;> simp

@[simp] theorem State.claimExpires_counters (s : State) (p : PortId) :
    (s.claimExpires p).standing.counters = s.standing.counters := by
  unfold State.claimExpires; split <;> simp

@[simp] theorem State.readyExpires_counters (s : State) (p : PortId) :
    (s.readyExpires p).standing.counters = s.standing.counters := by
  unfold State.readyExpires; split <;> simp

@[simp] theorem State.settleExpires_counters (s : State) (p : PortId) :
    (s.settleExpires p).standing.counters = s.standing.counters := by
  unfold State.settleExpires; split <;> simp

@[simp] theorem State.resyncExpires_counters (s : State) (p : PortId) :
    (s.resyncExpires p).standing.counters = s.standing.counters := by
  unfold State.resyncExpires
  split
  · dsimp only; split <;> simp
  · rfl

@[simp] theorem State.windowCarries_standing (s : State) (p : PortId) : (s.windowCarries p).standing = s.standing := by
  unfold State.windowCarries; split <;> simp [State.carry]

@[simp] theorem State.windowExpires_counters (s : State) (p : PortId) :
    (s.windowExpires p).standing.counters = s.standing.counters := by
  unfold State.windowExpires
  split
  · dsimp only; split <;> simp
  · rfl

@[simp] theorem State.prechargeEnds_counters (s : State) (p : PortId) :
    (s.prechargeEnds p).standing.counters = s.standing.counters := by
  unfold State.prechargeEnds; split <;> simp [State.endPrecharge]

/-! ### Sensed inputs and the take -/

@[simp] theorem State.railGoesLow_counters (s : State) : s.railGoesLow.standing.counters = s.standing.counters := by
  unfold State.railGoesLow; dsimp only; split <;> simp

@[simp] theorem State.railRecovers_counters (s : State) : s.railRecovers.standing.counters = s.standing.counters := rfl

@[simp] theorem State.batteryReads_counters (s : State) (present : Bool) :
    (s.batteryReads present).standing.counters = s.standing.counters := by
  unfold State.batteryReads; dsimp only; split <;> simp

@[simp] theorem State.take_standing (s : State) : s.take.standing = s.standing := by
  unfold State.take
  split
  · split <;> simp
  · rfl

@[simp] theorem State.tripPort_standing (s : State) (p : PortId) : (s.tripPort p).standing = s.standing := by
  simp [State.tripPort]

@[simp] theorem State.trip_counters (s : State) (p : PortId) : (s.trip p).standing.counters = s.standing.counters :=
  s.endingStep_counters p .aborted fun u => by simp

@[simp] theorem State.countDroop_standing (s : State) (p : PortId) : (s.countDroop p).standing = s.standing := by
  simp [State.countDroop, State.droop, State.persistentDroop]

@[simp] theorem State.settleTest_standing (s : State) (p : PortId) : (s.settleTest p).standing = s.standing := by
  unfold State.settleTest; split <;> simp

end Sys2Proof.Machine
end

section
/-! SUPPORT. The counters and their snapshot over every command, and what a SAMPLE that does not trip makes of a meter. -/

namespace Sys2Proof.Machine

/-! ### Every command -/

/-- The command's next state has the energy counters and the snapshot that `s` has. -/
def KeepsCounters (i : Instr) (s : State) : Prop := ∀ t, exec i s = .next t → t.standing.counters = s.standing.counters

theorem KeepsCounters.of_finish {i : Instr} {s u : State} (ends : exec i s = finish u)
    (kept : u.standing.counters = s.standing.counters) : KeepsCounters i s := by
  intro t next
  rw [ends, finish_eq] at next
  injection next with next
  rw [← next, State.refresh_standing, kept]

/-- The commands that write an energy counter or the snapshot: SNAPSHOT, CLEAR_ENERGY, SAMPLE and the three hard resets
(R146, R158 to R160). -/
def writesCounters : Instr → Bool
  | .snapshot | .clearEnergy _ | .sample _ _ _ | .powerOn _ | .supplyLow _ | .pinReset _ => true
  | _ => false

/-- Every other command keeps them. -/
theorem keepsCounters {i : Instr} (h : writesCounters i = false) (s : State) : KeepsCounters i s := by
  cases i with
  | snapshot | clearEnergy | sample | powerOn | supplyLow | pinReset => cases h
  | getStatus | getPlan | getEvents | softReset | setEventMask | setSilence =>
    exact .of_finish rfl (s.serve_counters _ _ fun _ => rfl)
  | getPort | getOffers | getCapture =>
    exact .of_finish rfl (s.serve_counters _ _ fun u => u.onPort_counters _ fun _ => rfl)
  | clearEvents => exact .of_finish rfl (s.serve_counters _ _ fun u => u.clearFlags_counters _)
  | takeControl => exact .of_finish rfl (s.serve_counters _ _ fun u => u.takeControl_counters _ _)
  | releaseControl => exact .of_finish rfl (s.serve_counters _ _ State.releaseControl_counters)
  | sleep => exact .of_finish rfl (s.serve_counters _ _ fun u => u.sleep_counters _)
  | setDemand => exact .of_finish rfl (s.serve_counters _ _ fun u => u.inDirected_counters (u.setDemand_counters _))
  | setLimit => exact .of_finish rfl (s.serve_counters _ _ fun u => u.inDirected_counters (u.setLimit_counters _))
  | setMask | halt => exact .of_finish rfl (s.serve_counters _ _ fun u => u.inDirected_counters rfl)
  | resume => exact .of_finish rfl (s.serve_counters _ _ fun u => u.inDirected_counters (by simp))
  | setPort =>
    exact .of_finish rfl (s.serve_counters _ _ fun u =>
      u.inDirected_counters (u.onPort_counters _ fun p => by simp))
  | portEnable => exact .of_finish rfl (s.serve_counters _ _ fun u => u.onPort_counters _ fun p => by simp)
  | portRestart | portDisable =>
    exact .of_finish rfl (s.serve_counters _ _ fun u => u.onPort_counters _ fun p =>
      u.takePort_counters p fun x => by simp)
  | serveErrorEntry => exact .of_finish rfl s.serveError_counters
  | hostStartByte => exact .of_finish rfl s.hostStart_counters
  | requestFrameComplete bytes => exact .of_finish rfl (s.frameComplete_counters bytes)
  | hostFrameGapTimeout | startingEnd | transmitStart | backoffRetry | queryWaitExpiry =>
    exact .of_finish rfl (by split <;> simp)
  | hostFramingError =>
    refine .of_finish rfl ?_
    split
    · dsimp only; split <;> simp
    · rfl
  | replySent => exact .of_finish rfl s.replyEnds_counters
  | resetCauseEnd k b => exact .of_finish rfl (s.releaseFrom_counters k b)
  | silenceExpiry => exact .of_finish rfl s.silenceExpires_counters
  | presenceAssert p => exact .of_finish rfl (s.presenceAsserts_counters p)
  | presenceLoss p => exact .of_finish rfl (s.presenceGoes_counters p)
  | debounceEnd p => exact .of_finish rfl (s.debounceEnds_counters p)
  | detach p => exact .of_finish rfl (s.detaches_counters p)
  | discoveryTimeout p => exact .of_finish rfl (s.discoveryFails_counters p)
  | coolDownEnd p => exact .of_finish rfl (s.coolDownEnds_counters p)
  | cleanRunEnd p => exact .of_finish rfl (s.cleanRunEnds_counters p)
  | offers p frame | grant p frame | deny p frame | ready p frame | rating p frame =>
    exact .of_finish rfl (s.receive_counters p frame fun u m => by split <;> simp)
  | dialogueFrameReject p frame => exact .of_finish rfl (s.receive_counters p frame fun _ _ => rfl)
  | lineGapTimeout p => exact .of_finish rfl (s.gapPasses_counters p)
  | breakReceived p => exact .of_finish rfl (s.breakComes_counters p)
  | startOfFrameReport p => exact .of_finish rfl (s.frameStarts_counters p)
  | collision p => exact .of_finish rfl (s.collides_counters p)
  | frameSent p => exact .of_finish rfl (s.frameGone_counters p)
  | breakRelease p => exact .of_finish rfl (s.breakReleases_counters p)
  | claimWaitExpiry p => exact .of_finish rfl (s.claimExpires_counters p)
  | readyTimeout p => exact .of_finish rfl (s.readyExpires_counters p)
  | settleTimeout p => exact .of_finish rfl (s.settleExpires_counters p)
  | resyncExpiry p => exact .of_finish rfl (s.resyncExpires_counters p)
  | windowExpiry p => exact .of_finish rfl (s.windowExpires_counters p)
  | prechargeEnd p => exact .of_finish rfl (s.prechargeEnds_counters p)
  | railLowAssert => exact .of_finish rfl s.railGoesLow_counters
  | railLowClear => exact .of_finish rfl s.railRecovers_counters
  | batteryChange present => exact .of_finish rfl (s.batteryReads_counters present)
  | take => exact .of_finish rfl (congrArg Standing.counters s.take_standing)
  | syncByteTaken p => exact .of_finish rfl (s.syncTaken_counters p)
  | lineFramingError p => exact .of_finish rfl (s.framingError_counters p)

/-! ### The snapshot over the commands that write energy -/

@[simp] theorem State.modMeter_snapshot (s : State) (p : PortId) (f : Meter → Meter) :
    (s.modMeter p f).standing.counters.snapshot = s.standing.counters.snapshot := rfl

/-- A SAMPLE counts energy and leaves the snapshot. -/
theorem State.sampled_snapshot (s : State) (p : PortId) (v m : Nat) :
    (s.sampled p v m).prot.snapshot = s.prot.snapshot := by
  have closed (u : State) : (u.sampleClosed p).standing.counters.snapshot = u.standing.counters.snapshot := by
    unfold State.sampleClosed; dsimp only; split <;> simp
  have sampled (u : State) : (u.samplePort p).standing.counters.snapshot = u.standing.counters.snapshot := by
    unfold State.samplePort
    split
    · simp
    · dsimp only; split <;> simp [closed]
  change (s.sampled p v m).standing.counters.snapshot = s.standing.counters.snapshot
  unfold State.sampled
  dsimp only
  split <;> simp [sampled]

/-- CLEAR_ENERGY's work on the port it names (R159). -/
def State.energyCleared (s : State) (p : PortId) : Answer :=
  (s.modMeter p fun m => { m with whole := 0, fine := 0 }).answer .ok

theorem exec_clearEnergy (b : Byte) (s : State) :
    exec (.clearEnergy b) s = finish (s.serve .clearEnergy [b] fun s => s.onPort b State.energyCleared) := rfl

/-- A CLEAR_ENERGY leaves the snapshot. -/
theorem State.clearEnergy_snapshot (s : State) (b : Byte) :
    (s.serve .clearEnergy [b] fun s => s.onPort b State.energyCleared).prot.snapshot = s.prot.snapshot := by
  rcases s.serve_cases .clearEnergy [b] fun s => s.onPort b State.energyCleared with unserved | ⟨u, kept, served⟩
  · rw [unserved]
  · rw [served, ← snapshot_of_counters kept]
    rcases u.onPort_cases b State.energyCleared with refused | ⟨p, done⟩
    · rw [refused]; rfl
    · rw [done]; rfl

/-- Of all commands, SNAPSHOT and the three hard resets alone write the snapshot (R146, R160). -/
theorem snapshot_of_exec {i : Instr} {s t : State} (next : exec i s = .next t) (request : i ≠ .snapshot)
    (reset : ∀ r, i ≠ .powerOn r ∧ i ≠ .supplyLow r ∧ i ≠ .pinReset r) : t.prot.snapshot = s.prot.snapshot := by
  rcases writes : writesCounters i with _ | _
  · exact State.snapshot_of_counters (keepsCounters writes s t next)
  · cases i with
    | snapshot => exact absurd rfl request
    | powerOn r => exact absurd rfl (reset r).1
    | supplyLow r => exact absurd rfl (reset r).2.1
    | pinReset r => exact absurd rfl (reset r).2.2
    | sample p v m => cases next; exact s.sampled_snapshot p v m
    | clearEnergy b => cases next; exact s.clearEnergy_snapshot b
    | _ => cases writes

/-- A hard reset removes the snapshot, whether or not its cause ends (R146, R164). -/
theorem State.hardReset_snapshot (s : State) (k : HardReset) (r : Option Board) :
    (s.hardReset k r).prot.snapshot = none := by
  cases r with
  | none => rfl
  | some b => exact snapshot_of_counters ((s.holdIn k).releaseFrom_counters k b)

/-! ### What a SAMPLE makes of a meter -/

/-- A result corrected by trim stays within its top (R148). -/
theorem corrected_le (c : Correction) (raw top : Nat) : corrected c raw top ≤ top := min_le_left _ _

/-- The correction by its direction: added, or subtracted down to 0 (R148). -/
theorem corrected_spec (c : Correction) (raw top : Nat) :
    (c.direction = .add → corrected c raw top = min top (raw + c.amount)) ∧
    (c.direction = .subtract → raw ≤ c.amount → corrected c raw top = 0) ∧
    (c.direction = .subtract → c.amount ≤ raw → corrected c raw top = min top (raw - c.amount)) := by
  refine ⟨fun add => ?_, fun subtract low => ?_, fun subtract _ => ?_⟩
  · simp [corrected, add]
  · simp [corrected, subtract, Nat.sub_eq_zero_of_le low]
  · simp [corrected, subtract]

/-- The energy of a millisecond at 30000 mV and 8000 mA at the most. -/
theorem energy_le {v i : Nat} (hv : v ≤ 30000) (hi : i ≤ 8000) : v * i / 1000 ≤ 240000 := by
  have := Nat.mul_le_mul hv hi
  omega

/-- Short of one mWh, F takes the energy (R158). -/
theorem Meter.addEnergy_of_lt {m : Meter} {v i : Nat} (below : m.fine + v * i / 1000 < 3600000) :
    m.addEnergy v i = { m with fine := m.fine + v * i / 1000 } := by
  simp [Meter.addEnergy, mwMsPerMwh, below.not_ge]

/-- One mWh of F is carried into W (R158). -/
theorem Meter.addEnergy_of_le {m : Meter} {v i : Nat} (above : 3600000 ≤ m.fine + v * i / 1000) :
    m.addEnergy v i =
      { m with fine := m.fine + v * i / 1000 - 3600000, whole := (m.whole + 1) % 4294967296 } := by
  simp [Meter.addEnergy, mwMsPerMwh, wholeEnergyWrap, above]

/-- W wraps at 2^32 (R158). -/
theorem Meter.whole_wraps {m : Meter} (lawful : m.Lawful) :
    (m.whole + 1) % 4294967296 = if m.whole = 4294967295 then 0 else m.whole + 1 := by
  obtain ⟨-, whole, -, -⟩ := lawful
  split <;> omega

/-- A millisecond's energy leaves F below one mWh (R146, R158). -/
theorem Meter.addEnergy_fine_lt {m : Meter} (lawful : m.Lawful) {v i : Nat} (energy : v * i / 1000 ≤ 240000) :
    (m.addEnergy v i).fine < 3600000 := by
  obtain ⟨fine, -, -, -⟩ := lawful
  rcases lt_or_ge (m.fine + v * i / 1000) 3600000 with below | above
  · rw [addEnergy_of_lt below]; exact below
  · rw [addEnergy_of_le above]; dsimp only; omega

/-- The counters after a count of energy come of the counters before it. -/
theorem Meter.addEnergy_energy {m m' : Meter} (same : m.energy = m'.energy) (v i : Nat) :
    (m.addEnergy v i).energy = (m'.addEnergy v i).energy := by
  obtain ⟨whole, fine⟩ := energy_eq_iff.mp same
  simp only [Meter.addEnergy, whole, fine]
  split <;> rfl

/-- W and F where a count of energy has left them: a carry of one mWh at 3,600,000, and W's wrap (R158). -/
theorem Meter.counters_of_addEnergy {m n : Meter} (lawful : m.Lawful) {v i : Nat}
    (counted : n.energy = (m.addEnergy v i).energy) :
    (m.fine + v * i / 1000 < 3600000 → n.fine = m.fine + v * i / 1000 ∧ n.whole = m.whole) ∧
    (3600000 ≤ m.fine + v * i / 1000 → n.fine = m.fine + v * i / 1000 - 3600000 ∧
      n.whole = if m.whole = 4294967295 then 0 else m.whole + 1) := by
  obtain ⟨whole, fine⟩ := energy_eq_iff.mp counted
  rw [whole, fine]
  refine ⟨fun below => ?_, fun above => ?_⟩
  · rw [addEnergy_of_lt below]; exact ⟨rfl, rfl⟩
  · rw [addEnergy_of_le above]; exact ⟨rfl, whole_wraps lawful⟩

/-- The line read, and the accumulator `x` written: what a sample that does not trip does first (R148, R150). -/
def State.integrated (s : State) (p : PortId) (v m x : Nat) : State :=
  (s.modPins fun y => { y with sense := y.sense.set p ⟨v, m⟩ }).modMeter p fun c => { c with excess := x }

section
variable (s : State) (p : PortId) (v m x : Nat)

theorem State.integrated_voltage :
    (s.integrated p v m x).voltage p = corrected (s.mode.trim.get p).voltage v 30000 := by
  simp [State.integrated, State.voltage, senseVoltageTop]

theorem State.integrated_current :
    (s.integrated p v m x).current p = corrected (s.mode.trim.get p).current m 8000 := by
  simp [State.integrated, State.current, senseCurrentTop]

theorem State.integrated_sense : (s.integrated p v m x).pins.sense.get p = ⟨v, m⟩ := by
  simp [State.integrated]

theorem State.integrated_meter : (s.integrated p v m x).meter p = { s.meter p with excess := x } := by
  simp [State.integrated]

theorem State.integrated_meter_ne {q : PortId} (other : q ≠ p) : (s.integrated p v m x).meter q = s.meter q := by
  simp [State.integrated, other]

end

/-- A sample that does not trip reads the line, integrates the current, and does the work of a CLOSED path (R148 to R151). -/
theorem State.sampled_of_no_trip {s : State} {p : PortId} {v m M : Nat}
    (reading : M = corrected (s.mode.trim.get p).current m 8000) (sampled : (s.portPath p).state ≠ .openPath)
    (hard : M < 6000) (soft : integrate (s.meter p).excess (allowance (s.reference p)) M < 4000) :
    s.sampled p v m =
      (s.integrated p v m (integrate (s.meter p).excess (allowance (s.reference p)) M)).sampleClosed p := by
  have current : (s.modPins fun x => { x with sense := x.sense.set p ⟨v, m⟩ }).current p = M :=
    (s.integrated_current p v m 0).trans reading.symm
  have reference : (s.modPins fun x => { x with sense := x.sense.set p ⟨v, m⟩ }).reference p = s.reference p := rfl
  simp [State.sampled, sampled, State.samplePort, State.integrated, current, reference, hardTripCurrent, tripThreshold,
    hard.not_ge, soft.not_ge]

/-- A sample's count of energy (R158). -/
def State.countEnergy (s : State) (p : PortId) : State := s.modMeter p fun m => m.addEnergy (s.voltage p) (s.current p)

/-- The work of a sample on a CLOSED path, in its order (R148). -/
theorem State.sampleClosed_of_closed {s : State} {p : PortId} (closed : s.isClosed p = true) :
    s.sampleClosed p = ((s.countDroop p).countEnergy p).settleTest p := by
  simp [State.sampleClosed, closed, State.countEnergy]

/-- On a path that is not CLOSED there is none. -/
theorem State.sampleClosed_of_not_closed {s : State} {p : PortId} (precharge : s.isClosed p = false) :
    s.sampleClosed p = s := by
  simp [State.sampleClosed, precharge]

/-- It leaves the lines and the clock, whatever the path. -/
theorem State.sampleClosed_pins_clock (s : State) (p : PortId) :
    (s.sampleClosed p).pins = s.pins ∧ (s.sampleClosed p).clock = s.clock := by
  rcases closed : s.isClosed p with _ | _
  · rw [sampleClosed_of_not_closed closed]; exact ⟨rfl, rfl⟩
  · have settled := ((s.countDroop p).countEnergy p).settleTest_standing p
    have pins : (s.countDroop p).pins = s.pins := pins_of_standing (s.countDroop_standing p)
    have clock : (s.countDroop p).clock = s.clock := clock_of_standing (s.countDroop_standing p)
    rw [sampleClosed_of_closed closed]
    exact ⟨(pins_of_standing settled).trans pins, (clock_of_standing settled).trans clock⟩

/-- The energy counters after the work of a sample on a CLOSED path: the port's have the energy of its readings added, and the
others stand. -/
theorem State.sampleClosed_energy {s : State} {p : PortId} (closed : s.isClosed p = true) :
    ((s.sampleClosed p).meter p).energy = ((s.meter p).addEnergy (s.voltage p) (s.current p)).energy ∧
      ∀ q, q ≠ p → ((s.sampleClosed p).meter q).energy = (s.meter q).energy := by
  have droop := s.countDroop_standing p
  have counted (q : PortId) := energy_of_counters (congrArg Standing.counters droop) q
  have settled (q : PortId) := energy_of_counters
    (congrArg Standing.counters (((s.countDroop p).countEnergy p).settleTest_standing p)) q
  rw [sampleClosed_of_closed closed]
  refine ⟨?_, fun q other => ?_⟩
  · rw [settled, countEnergy, modMeter_meter_same, voltage_of_standing droop, current_of_standing droop]
    exact Meter.addEnergy_energy (counted p) _ _
  · rw [settled, countEnergy, modMeter_meter_ne _ _ _ _ other, counted]

/-- W and F of a CLOSED port at a sample that does not trip (R158). -/
theorem State.integrated_counts {s : State} {p : PortId} {v m x : Nat} (closed : (s.portPath p).state = .closed) :
    (((s.integrated p v m x).sampleClosed p).meter p).energy =
      ((s.meter p).addEnergy (corrected (s.mode.trim.get p).voltage v 30000)
        (corrected (s.mode.trim.get p).current m 8000)).energy := by
  have isClosed : (s.integrated p v m x).isClosed p = true := by simp [State.integrated, State.isClosed, closed]
  rw [(sampleClosed_energy isClosed).1, integrated_voltage, integrated_current, integrated_meter]
  exact Meter.addEnergy_energy (by rfl) _ _

/-- On a path that is not CLOSED the sample's work is the reading and the integration alone. -/
theorem State.integrated_stays {s : State} {p : PortId} {v m x : Nat} (precharge : (s.portPath p).state ≠ .closed) :
    (s.integrated p v m x).sampleClosed p = s.integrated p v m x :=
  sampleClosed_of_not_closed (by simp [State.integrated, State.isClosed, precharge])

/-- A sample leaves W and F of every other port. -/
theorem State.integrated_keeps_others {s : State} {p q : PortId} {v m x : Nat} (other : q ≠ p) :
    (((s.integrated p v m x).sampleClosed p).meter q).energy = (s.meter q).energy := by
  rw [← s.integrated_meter_ne p v m x other]
  rcases closed : (s.integrated p v m x).isClosed p with _ | _
  · rw [sampleClosed_of_not_closed closed]
  · exact (sampleClosed_energy closed).2 q other

end Sys2Proof.Machine
end

section
/-! PROOF. The statements of chapter 8 about the energy counters and their snapshot. -/

namespace Sys2Proof.Machine

/-- Settles O29: a request whose turn it is does its work on the port it names, and a byte that names none is refused. -/
theorem clearEnergyClearsWAndF : Obligations.ClearEnergyClearsWAndF := by
  intro s rest b turn
  rw [exec_clearEnergy, State.serve_of_turn turn]
  refine ⟨fun unnamed => ?_, fun p name count => ?_⟩
  · rw [State.onPort_eq_badPort (s := s.dequeued rest) unnamed]; rfl
  · rw [State.onPort_of_number (s := s.dequeued rest) name count]; rfl

/-- Settles O28: the request's work is the record of the counters as they stand; no other command but a hard reset writes the
record (`snapshot_of_exec`), and each of those removes it. -/
theorem snapshotCopiesTheCounters : Obligations.SnapshotCopiesTheCounters := by
  refine ⟨fun s rest turn => ?_, fun i s t => snapshot_of_exec, fun s r => ?_⟩
  · exact congrArg finish (State.serve_of_turn turn State.takeSnapshot)
  · exact ⟨_, _, _, rfl, rfl, rfl, s.hardReset_snapshot .powerOn r, s.hardReset_snapshot .supplyLow r,
      s.hardReset_snapshot .pin r⟩

/-- Settles O54: a sample that does not trip integrates the current and leaves the rest of the meter to the work of a CLOSED
path, of which the count of energy alone writes W and F. -/
theorem samplesCountEnergy : Obligations.SamplesCountEnergy := by
  intro s p v m V M lawful voltage current sampled hard soft
  have hV : V ≤ 30000 := voltage ▸ corrected_le _ _ _
  have hM : M ≤ 8000 := current ▸ corrected_le _ _ _
  have energy := energy_le hV hM
  obtain ⟨voltAdd, voltFloor, voltSub⟩ := corrected_spec (s.mode.trim.get p).voltage v 30000
  obtain ⟨ampAdd, ampFloor, ampSub⟩ := corrected_spec (s.mode.trim.get p).current m 8000
  have ended := State.sampled_of_no_trip (v := v) current sampled hard soft
  generalize integrate (s.meter p).excess (allowance (s.reference p)) M = x at ended ⊢
  obtain ⟨pins, clock⟩ := (s.integrated p v m x).sampleClosed_pins_clock p
  refine ⟨((s.integrated p v m x).sampleClosed p).refresh, ended ▸ rfl, hV, hM, energy, ?_,
    (congrArg (fun y => y.sense.get p) pins).trans (s.integrated_sense p v m x), clock, fun precharge => ?_,
    fun closed => ?_, ?_, fun q other => ?_⟩
  · subst voltage current
    exact ⟨voltAdd, voltFloor, voltSub, ampAdd, ampFloor, ampSub, rfl, rfl⟩
  · rw [State.integrated_stays (by simp [precharge])]
    exact ⟨rfl, fun q other => ⟨rfl, rfl, s.integrated_meter_ne p v m x other⟩, rfl, s.integrated_meter p v m x, rfl⟩
  · subst voltage current
    exact Meter.counters_of_addEnergy (lawful p) (State.integrated_counts closed)
  · by_cases closed : (s.portPath p).state = .closed
    · obtain ⟨-, fine⟩ := Meter.energy_eq_iff.mp (s.integrated_counts (v := v) (m := m) (x := x) closed)
      rw [← voltage, ← current] at fine
      exact fine ▸ Meter.addEnergy_fine_lt (lawful p) energy
    · obtain ⟨fine, -⟩ := lawful p
      rw [State.integrated_stays closed, State.refresh_meter, State.integrated_meter]
      exact fine
  · exact (Meter.energy_eq_iff.mp (State.integrated_keeps_others other)).symm

end Sys2Proof.Machine
end
